-- ==== Sys2Proof/Word.lean ====
section
/-! DEFINITION. The word types of the block: bytes, event words, keys, and the six-byte command frame
(spec R8, R28, R70, R83, R84). -/

namespace Sys2Proof

/-- A byte, bit 0 its least significant bit (R10). -/
abbrev Byte := BitVec 8

/-- An event word: code in bits 39..32, payload in bits 31..0 (R70). -/
abbrev EventWord := BitVec 40

/-- A control key: CSTATE in bits 41..40, the event word below it (R83). -/
abbrev CtlKey := BitVec 42

/-- A modulator key: MSTATE in bits 42..40, the event word below it (R84). -/
abbrev ModKey := BitVec 43

/-- The word by which the model drives a datapath unit directly: the opcode table's 4-bit select in
bits 3..0 (R89), bits 7..4 zero, the operands above (DESIGN CHOICE, log entry 6). -/
abbrev UnitWord := BitVec 64

/-- A 32-bit two's-complement value: a sample in millidegrees, or LAST_C (R8). -/
abbrev Word32 := BitVec 32

/-- The command frame, six bytes; byte 0 is sent first and byte 5 is the checksum (R28, R74). -/
structure Frame where
  b0 : Byte
  b1 : Byte
  b2 : Byte
  b3 : Byte
  b4 : Byte
  b5 : Byte
deriving DecidableEq, Repr, Inhabited

end Sys2Proof
end

