-- ==== Sys2Proof/Syntax.lean ====
section
/-! DEFINITION. The instructions: one constructor per row of the spec's opcode table, in the table's
order, and the state names that stand in the step keys (spec R20, R30, R83, R84, R89, R78). -/

namespace Sys2Proof

/-- The control-FSM states (R20); their codes are `CState.code`. -/
inductive CState where
  | awakeSampling
  | awakeDeciding
  | awakeTransmitting
  | asleep
deriving DecidableEq, Repr

/-- The modulator states (R30); their codes are `MState.code`. `reserved` is the code 0b111, which no
rule enters and which raises `IllegalEvent` (R87). -/
inductive MState where
  | idle
  | hdrMark
  | hdrSpace
  | bitMark
  | bitSpace
  | ftrMark
  | ftrSpace
  | reserved
deriving DecidableEq, Repr

/-- One constructor per row of the opcode table: six control keys (R83), seven modulator keys (R84), ten
datapath units with their operands (R89), four on-air symbols (R78). A whole-degree operand is a
mathematical integer; `Instr.wf` bounds it to the 32 bits of R8. -/
inductive Instr where
  | reset
  | wake
  | senseOk (v : Word32)
  | senseFail
  | tick
  | txDone
  | modStart
  | modHdrMarkEnd
  | modHdrSpaceEnd
  | modBitMarkEnd
  | modBitSpaceEnd
  | modFtrMarkEnd
  | modFtrSpaceEnd
  | rev8 (b : Byte)
  | checksum (b0 b1 b2 b3 b4 : Byte)
  | buildFrame (t : Int)
  | verifyFrame (f : Frame)
  | clampT (t : Int)
  | truncC (v : Word32)
  | trigger (t : Int)
  | copy (f : Frame) (c : Bool)
  | pulseTrain (f : Frame)
  | carrier
  | symHdr
  | symBit0
  | symBit1
  | symFtr
deriving DecidableEq, Repr

end Sys2Proof
end

