-- ==== Sys2Proof/WellFormed.lean ====
section
/-! DEFINITION. When an instruction is well formed: its whole-degree operand fits the 32-bit
two's-complement width of R8. Every other operand's type is exactly its width. -/

namespace Sys2Proof

/-- The integer fits 32-bit two's complement (R8). -/
def fits32 (t : Int) : Bool := decide (-(2 ^ 31) ≤ t) && decide (t < 2 ^ 31)

/-- The only check: the whole-degree operands of BUILD_FRAME, CLAMP_T and TRIGGER fit 32 bits. -/
def Instr.wf : Instr → Bool
  | .reset => true
  | .wake => true
  | .senseOk _ => true
  | .senseFail => true
  | .tick => true
  | .txDone => true
  | .modStart => true
  | .modHdrMarkEnd => true
  | .modHdrSpaceEnd => true
  | .modBitMarkEnd => true
  | .modBitSpaceEnd => true
  | .modFtrMarkEnd => true
  | .modFtrSpaceEnd => true
  | .rev8 _ => true
  | .checksum _ _ _ _ _ => true
  | .buildFrame t => fits32 t
  | .verifyFrame _ => true
  | .clampT t => fits32 t
  | .truncC _ => true
  | .trigger t => fits32 t
  | .copy _ _ => true
  | .pulseTrain _ => true
  | .carrier => true
  | .symHdr => true
  | .symBit0 => true
  | .symBit1 => true
  | .symFtr => true

end Sys2Proof
end

