-- ==== Sys2Proof/Decode.lean ====
section
/-! DEFINITION. The decoder, total on any word, rejecting by name, and the encoder, both written from the
key tables of the spec (R70 to R73, R78, R83 to R90) and the opcode table. -/

namespace Sys2Proof

/-! ### State codes -/

/-- The 2-bit code of a control state (R20). -/
def CState.code : CState → BitVec 2
  | .awakeSampling => 0b00#2
  | .awakeDeciding => 0b01#2
  | .awakeTransmitting => 0b10#2
  | .asleep => 0b11#2

/-- The control state of a code; all four codes are legal (R20). -/
def CState.ofCode (c : BitVec 2) : CState :=
  if c = 0b00#2 then .awakeSampling
  else if c = 0b01#2 then .awakeDeciding
  else if c = 0b10#2 then .awakeTransmitting
  else .asleep

/-- The 3-bit code of a modulator state (R30). -/
def MState.code : MState → BitVec 3
  | .idle => 0b000#3
  | .hdrMark => 0b001#3
  | .hdrSpace => 0b010#3
  | .bitMark => 0b011#3
  | .bitSpace => 0b100#3
  | .ftrMark => 0b101#3
  | .ftrSpace => 0b110#3
  | .reserved => 0b111#3

/-- The modulator state of a code (R30); 0b111 is `reserved`. -/
def MState.ofCode (c : BitVec 3) : MState :=
  if c = 0b000#3 then .idle
  else if c = 0b001#3 then .hdrMark
  else if c = 0b010#3 then .hdrSpace
  else if c = 0b011#3 then .bitMark
  else if c = 0b100#3 then .bitSpace
  else if c = 0b101#3 then .ftrMark
  else if c = 0b110#3 then .ftrSpace
  else .reserved

/-! ### Event words -/

/-- The event code, `EV[39:32]` (R70). -/
def evCode (ev : EventWord) : Byte := ev.extractLsb' 32 8

/-- The payload, `EV[31:0]` (R70). -/
def evPayload (ev : EventWord) : Word32 := ev.extractLsb' 0 32

/-- An event word from its two fields (R70). -/
def eventWord (code : Byte) (payload : Word32) : EventWord := code ++ payload

/-- The word of `RESET` (R71). -/
def resetWord : EventWord := 0x0100000000#40

/-- The word of `WAKE` (R71). -/
def wakeWord : EventWord := 0x0200000000#40

/-- The word of `SENSE_OK v` (R71, R72). -/
def senseOkWord (v : Word32) : EventWord := eventWord 0x03#8 v

/-- The word of `SENSE_FAIL` (R71). -/
def senseFailWord : EventWord := 0x0400000000#40

/-- The word of `TICK` (R71). -/
def tickWord : EventWord := 0x0500000000#40

/-- The word of `TX_DONE` (R71). -/
def txDoneWord : EventWord := 0x0600000000#40

/-- The word of `MOD_START` (R71). -/
def modStartWord : EventWord := 0x1000000000#40

/-- The word of `PULSE_END` (R71). -/
def pulseEndWord : EventWord := 0x1100000000#40

/-- The codes routed to the control FSM: 0x01 to 0x06 (R85). -/
def isCtlCode (c : Byte) : Bool := decide (0x01#8 ≤ c) && decide (c ≤ 0x06#8)

/-- The codes routed to the modulator: 0x10 and 0x11 (R85). -/
def isModCode (c : Byte) : Bool := decide (c = 0x10#8) || decide (c = 0x11#8)

/-- A reserved encoding (R86): a code outside R71's table, or a nonzero payload on an event other than
`SENSE_OK` (R73). -/
def isReservedWord (ev : EventWord) : Bool :=
  !(isCtlCode (evCode ev) || isModCode (evCode ev))
    || (decide (evCode ev ≠ 0x03#8) && decide (evPayload ev ≠ 0#32))

/-! ### Keys -/

/-- `{CSTATE, EV}` (R83). -/
def ctlKey (cs : CState) (ev : EventWord) : CtlKey := cs.code ++ ev

/-- `{MSTATE, EV}` (R84). -/
def modKey (ms : MState) (ev : EventWord) : ModKey := ms.code ++ ev

/-- The rows of R83: mask and match of each control key, in the table's order. -/
def ctlKeyInstr (k : CtlKey) : Option Instr :=
  if k &&& 0x0FFFFFFFFFF#42 = 0x00100000000#42 then some .reset
  else if k &&& 0x3FFFFFFFFFF#42 = 0x30200000000#42 then some .wake
  else if k &&& 0x3FF00000000#42 = 0x00300000000#42 then some (.senseOk (k.extractLsb' 0 32))
  else if k &&& 0x3FFFFFFFFFF#42 = 0x00400000000#42 then some .senseFail
  else if k &&& 0x3FFFFFFFFFF#42 = 0x10500000000#42 then some .tick
  else if k &&& 0x3FFFFFFFFFF#42 = 0x20600000000#42 then some .txDone
  else none

/-- The rows of R84: mask and match of each modulator key, with `RESET` legal in every state. -/
def modKeyInstr (k : ModKey) : Option Instr :=
  if k &&& 0x0FFFFFFFFFF#43 = 0x00100000000#43 then some .reset
  else if k &&& 0x7FFFFFFFFFF#43 = 0x01000000000#43 then some .modStart
  else if k &&& 0x7FFFFFFFFFF#43 = 0x11100000000#43 then some .modHdrMarkEnd
  else if k &&& 0x7FFFFFFFFFF#43 = 0x21100000000#43 then some .modHdrSpaceEnd
  else if k &&& 0x7FFFFFFFFFF#43 = 0x31100000000#43 then some .modBitMarkEnd
  else if k &&& 0x7FFFFFFFFFF#43 = 0x41100000000#43 then some .modBitSpaceEnd
  else if k &&& 0x7FFFFFFFFFF#43 = 0x51100000000#43 then some .modFtrMarkEnd
  else if k &&& 0x7FFFFFFFFFF#43 = 0x61100000000#43 then some .modFtrSpaceEnd
  else none

/-- What the decoder makes of a word. The first three are the verdicts of R85; `unassignedUnit` is a
unit word whose select or unused bits R89 gives no unit for. -/
inductive Verdict where
  | legal (i : Instr)
  | reservedEncoding
  | illegalEvent
  | unassignedUnit
deriving DecidableEq, Repr

/-- The verdict on an event word that is not reserved, from its key row if it has one (R85, R87). -/
def verdictOfRow : Option Instr → Verdict
  | some i => .legal i
  | none => .illegalEvent

/-- The decoder of R85: an event word with the current CSTATE and MSTATE. Control codes go to the control
FSM and modulator codes to the modulator. A word that is both reserved and in the wrong state is
reserved (DEDUCED, log entry 8); with MSTATE = 0b111 every known event but `RESET` is illegal (R87). -/
def decodeEvent (cs : CState) (ms : MState) (ev : EventWord) : Verdict :=
  if isReservedWord ev then .reservedEncoding
  else if ms = .reserved ∧ ev ≠ resetWord then .illegalEvent
  else if isModCode (evCode ev) then verdictOfRow (modKeyInstr (modKey ms ev))
  else verdictOfRow (ctlKeyInstr (ctlKey cs ev))

/-! ### Unit words and symbol codes -/

/-- A unit word from a select and its operand field (log entry 6). -/
def unitWord (sel : BitVec 4) (ops : BitVec 56) : UnitWord := ops ++ (0#4 ++ sel)

/-- The select, bits 3..0 (R89). -/
def unitSel (u : UnitWord) : BitVec 4 := u.extractLsb' 0 4

/-- The operand field, bits 63..8. -/
def unitOps (u : UnitWord) : BitVec 56 := u.extractLsb' 8 56

/-- Operand byte j of the operand field. -/
def opByte (ops : BitVec 56) (j : Nat) : Byte := ops.extractLsb' (8 * j) 8

/-- A whole-degree operand: the low 32 bits of the operand field, two's complement (R8). -/
def opDegrees (ops : BitVec 56) : Int := (ops.extractLsb' 0 32).toInt

/-- A frame operand: byte 0 lowest. -/
def opFrame (ops : BitVec 56) : Frame :=
  ⟨opByte ops 0, opByte ops 1, opByte ops 2, opByte ops 3, opByte ops 4, opByte ops 5⟩

/-- Six bytes as an operand field's low 48 bits. -/
def packFrame (f : Frame) : BitVec 48 := f.b5 ++ (f.b4 ++ (f.b3 ++ (f.b2 ++ (f.b1 ++ f.b0))))

/-- Operand bits from bit n up are zero: the unit has no operand there. -/
def opsBelow (ops : BitVec 56) (n : Nat) : Bool := decide (ops.toNat < 2 ^ n)

/-- `i` when the check holds, else no unit. -/
def legalIf (ok : Bool) (i : Instr) : Verdict := if ok then .legal i else .unassignedUnit

/-- The unit selects of R89, with the operands the unit's rule names. -/
def decodeUnit (u : UnitWord) : Verdict :=
  let ops := unitOps u
  if u.extractLsb' 4 4 ≠ 0#4 then .unassignedUnit
  else if unitSel u = 0x1#4 then legalIf (opsBelow ops 8) (.rev8 (opByte ops 0))
  else if unitSel u = 0x2#4 then
    legalIf (opsBelow ops 40) (.checksum (opByte ops 0) (opByte ops 1) (opByte ops 2) (opByte ops 3) (opByte ops 4))
  else if unitSel u = 0x3#4 then legalIf (opsBelow ops 32) (.buildFrame (opDegrees ops))
  else if unitSel u = 0x4#4 then legalIf (opsBelow ops 48) (.verifyFrame (opFrame ops))
  else if unitSel u = 0x5#4 then legalIf (opsBelow ops 32) (.clampT (opDegrees ops))
  else if unitSel u = 0x6#4 then legalIf (opsBelow ops 32) (.truncC (ops.extractLsb' 0 32))
  else if unitSel u = 0x7#4 then legalIf (opsBelow ops 32) (.trigger (opDegrees ops))
  else if unitSel u = 0x8#4 then legalIf (opsBelow ops 49) (.copy (opFrame ops) (ops.getLsbD 48))
  else if unitSel u = 0x9#4 then legalIf (opsBelow ops 48) (.pulseTrain (opFrame ops))
  else if unitSel u = 0xA#4 then legalIf (opsBelow ops 0) .carrier
  else .unassignedUnit

/-- The 2-bit symbol codes of R78; no code is reserved. -/
def decodeSymbol (c : BitVec 2) : Instr :=
  if c = 0b00#2 then .symHdr
  else if c = 0b01#2 then .symBit0
  else if c = 0b10#2 then .symBit1
  else .symFtr

/-! ### One code word for every row, and the encoder -/

/-- A code word with the space it belongs to: the formats ctl_key, mod_key, unit and sym of the opcode
table. The spec gives the four spaces no common tag. -/
inductive CodeWord where
  | ctl (k : CtlKey)
  | mod (k : ModKey)
  | unit (u : UnitWord)
  | sym (c : BitVec 2)
deriving DecidableEq, Repr

/-- The event word of a control key. -/
def ctlKeyEvent (k : CtlKey) : EventWord := k.extractLsb' 0 40

/-- The control state of a control key. -/
def ctlKeyState (k : CtlKey) : CState := CState.ofCode (k.extractLsb' 40 2)

/-- The event word of a modulator key. -/
def modKeyEvent (k : ModKey) : EventWord := k.extractLsb' 0 40

/-- The modulator state of a modulator key. -/
def modKeyState (k : ModKey) : MState := MState.ofCode (k.extractLsb' 40 3)

/-- The verdict on any code word. A key is judged by its own rows; a key whose event word is reserved is
a reserved encoding, and any other key without a row is an illegal event. -/
def decode : CodeWord → Verdict
  | .ctl k => if isReservedWord (ctlKeyEvent k) then .reservedEncoding else verdictOfRow (ctlKeyInstr k)
  | .mod k => if isReservedWord (modKeyEvent k) then .reservedEncoding else verdictOfRow (modKeyInstr k)
  | .unit u => decodeUnit u
  | .sym c => .legal (decodeSymbol c)

/-- The instruction of a legal verdict. -/
def Verdict.instr? : Verdict → Option Instr
  | .legal i => some i
  | .reservedEncoding => none
  | .illegalEvent => none
  | .unassignedUnit => none

/-- The code word of a well-formed instruction: the match value of its row of the opcode table, with its
operands. `RESET`, legal in every state, is written with CSTATE 0b00 (log entry 21). -/
def encode : Instr → CodeWord
  | .reset => .ctl (ctlKey .awakeSampling resetWord)
  | .wake => .ctl (ctlKey .asleep wakeWord)
  | .senseOk v => .ctl (ctlKey .awakeSampling (senseOkWord v))
  | .senseFail => .ctl (ctlKey .awakeSampling senseFailWord)
  | .tick => .ctl (ctlKey .awakeDeciding tickWord)
  | .txDone => .ctl (ctlKey .awakeTransmitting txDoneWord)
  | .modStart => .mod (modKey .idle modStartWord)
  | .modHdrMarkEnd => .mod (modKey .hdrMark pulseEndWord)
  | .modHdrSpaceEnd => .mod (modKey .hdrSpace pulseEndWord)
  | .modBitMarkEnd => .mod (modKey .bitMark pulseEndWord)
  | .modBitSpaceEnd => .mod (modKey .bitSpace pulseEndWord)
  | .modFtrMarkEnd => .mod (modKey .ftrMark pulseEndWord)
  | .modFtrSpaceEnd => .mod (modKey .ftrSpace pulseEndWord)
  | .rev8 b => .unit (unitWord 0x1#4 (b.setWidth 56))
  | .checksum b0 b1 b2 b3 b4 => .unit (unitWord 0x2#4 ((b4 ++ (b3 ++ (b2 ++ (b1 ++ b0)))).setWidth 56))
  | .buildFrame t => .unit (unitWord 0x3#4 ((BitVec.ofInt 32 t).setWidth 56))
  | .verifyFrame f => .unit (unitWord 0x4#4 ((packFrame f).setWidth 56))
  | .clampT t => .unit (unitWord 0x5#4 ((BitVec.ofInt 32 t).setWidth 56))
  | .truncC v => .unit (unitWord 0x6#4 (v.setWidth 56))
  | .trigger t => .unit (unitWord 0x7#4 ((BitVec.ofInt 32 t).setWidth 56))
  | .copy f c => .unit (unitWord 0x8#4 ((BitVec.ofBool c ++ packFrame f).setWidth 56))
  | .pulseTrain f => .unit (unitWord 0x9#4 ((packFrame f).setWidth 56))
  | .carrier => .unit (unitWord 0xA#4 0#56)
  | .symHdr => .sym 0b00#2
  | .symBit0 => .sym 0b01#2
  | .symBit1 => .sym 0b10#2
  | .symFtr => .sym 0b11#2

/-! ### Words numbered as the opcode table numbers them -/

/-- The code word that w stands for among words of nbits bits, numbered as the opcode table numbers
them. A key (9 to 48 bits) goes to the modulator when its code is a modulator code, else to the control
FSM, RESET to either. In one byte the table's unit selects and symbol codes overlap at 1, 2 and 3; there
the unit is taken (DESIGN CHOICE, log entry 7). -/
def tableWord (nbits w : Nat) : Option CodeWord :=
  if nbits ≤ 2 then (if w < 4 then some (.sym (BitVec.ofNat 2 w)) else none)
  else if nbits ≤ 8 then
    if w = 0 then some (.sym 0b00#2)
    else if w < 256 then some (.unit (BitVec.ofNat 64 w)) else none
  else if nbits ≤ 48 then
    let code := evCode (BitVec.ofNat 40 w)
    if isModCode code then (if w < 2 ^ 43 then some (.mod (BitVec.ofNat 43 w)) else none)
    else if w < 2 ^ 42 then some (.ctl (BitVec.ofNat 42 w))
    else if code = 0x01#8 ∧ w < 2 ^ 43 then some (.mod (BitVec.ofNat 43 w))
    else none
  else if w < 2 ^ 64 then some (.unit (BitVec.ofNat 64 w)) else none

/-- The instruction the decoder reads from a word of nbits bits, numbered as the opcode table numbers
them; `none` where it rejects. -/
def decodeTableWord (nbits w : Nat) : Option Instr :=
  match tableWord nbits w with
  | some c => (decode c).instr?
  | none => none

end Sys2Proof
end

