-- ==== Sys2Proof/Config.lean ====
section
/-! DEFINITION. The parameters of the block with their constraints and defaults (spec R7, R9, R42), and
the free values the spec leaves open. -/

namespace Sys2Proof

/-- The parameters of R7. The spec fixes none of them: a machine is run at any set that meets
`Params.valid`, so every claim over all states is a claim over every parameter set. They stand in the
state (`State.cfg`) because the step has no other argument; no step writes them (R42, R236). -/
structure Params where
  /-- `P_U_US`: microseconds per protocol time unit. -/
  uUs : Nat
  /-- `P_HDR_MARK`, in units. -/
  hdrMark : Nat
  /-- `P_HDR_SPACE`, in units. -/
  hdrSpace : Nat
  /-- `P_BIT_MARK`, in units. -/
  bitMark : Nat
  /-- `P_ONE_SPACE`, in units. -/
  oneSpace : Nat
  /-- `P_ZERO_SPACE`, in units. -/
  zeroSpace : Nat
  /-- `P_FTR_MARK`, in units. -/
  ftrMark : Nat
  /-- `P_FTR_SPACE`, in units. -/
  ftrSpace : Nat
  /-- `P_CARRIER_HZ`. -/
  carrierHz : Nat
  /-- `P_DUTY_PCT`. -/
  dutyPct : Nat
  /-- `P_F0`: frame byte 0. -/
  f0 : Byte
  /-- `P_F1`: frame byte 1. -/
  f1 : Byte
  /-- `P_F2`: frame byte 2. -/
  f2 : Byte
  /-- `P_F3`: frame byte 3. -/
  f3 : Byte
  /-- `P_DELTA`, whole degrees. -/
  delta : Nat
  /-- `P_RATIO`, in cycles. -/
  ratio : Nat
  /-- `P_WAKE_S`, in seconds; 0 means never wake. -/
  wakeS : Nat
  /-- `P_TEMP_MIN`, whole degrees. -/
  tempMin : Int
  /-- `P_TEMP_MAX`, whole degrees. -/
  tempMax : Int
  /-- `P_CNT_W`: width of CYCLES in bits. -/
  cntW : Nat
  /-- `P_FAIL_UNDO_INC`. -/
  failUndoInc : Bool
deriving DecidableEq, Repr

/-- The constraints of R7's table, which R9 has a model check before the first step. The constraints
"integer ≥ 0", "8-bit" and "Boolean" are the fields' types. -/
def Params.valid (p : Params) : Bool :=
  decide (1 ≤ p.uUs ∧ 1 ≤ p.hdrMark ∧ 1 ≤ p.hdrSpace ∧ 1 ≤ p.bitMark
    ∧ 1 ≤ p.zeroSpace ∧ p.zeroSpace < p.oneSpace
    ∧ 1 ≤ p.ftrMark ∧ 1 ≤ p.ftrSpace
    ∧ 1 ≤ p.carrierHz ∧ 1 ≤ p.dutyPct ∧ p.dutyPct ≤ 99
    ∧ -1 ≤ p.tempMin ∧ p.tempMin ≤ p.tempMax ∧ p.tempMax ≤ 126
    ∧ 1 ≤ p.cntW)

/-- The defaults of R7. They are values for test vectors, not values of the device. `P_WAKE_S` has no
default: 600 is the value the spec's test programs use (DESIGN CHOICE, log entry 1). -/
def Params.defaults : Params where
  uUs := 80
  hdrMark := 56
  hdrSpace := 56
  bitMark := 7
  oneSpace := 21
  zeroSpace := 7
  ftrMark := 7
  ftrSpace := 70
  carrierHz := 38000
  dutyPct := 50
  f0 := 0xA1#8
  f1 := 0x82#8
  f2 := 0x6F#8
  f3 := 0xFF#8
  delta := 1
  ratio := 2
  wakeS := 600
  tempMin := 0
  tempMax := 30
  cntW := 32
  failUndoInc := false

/-- What the n-th `RESET` step leaves in SAMPLE_MC: "unspecified" (R230, R27). A free value: no body,
so nothing can be proved of it (log entry 3). -/
opaque Config.freeSample : Nat → Word32

/-- What the n-th `RESET` step leaves in FRAME[0..5]: "unspecified" (R230, R28). A free value
(log entry 3). -/
opaque Config.freeFrame : Nat → Frame

/-- The microseconds, 0 or more, that pass in the n-th step in which the block waits awake: the sensor's latency
has no bound and no value (R244). A free value (log entry 19). -/
opaque Config.freeWait : Nat → NNRat

end Sys2Proof
end

