-- ==== Sys2Proof/Machine/State.lean ====
section
/-! DEFINITION. The state of the block as plain data: every register of 10_state.md, the pending internal
event (spec R206), the parameters (R42), and the model's own observation and stimulus; and the state right
after reset (R230, R232). -/

namespace Sys2Proof.Machine

/-- The two kinds of pulse (R13). -/
inductive PulseKind where
  | mark
  | space
deriving DecidableEq, Repr

/-- A pulse: its kind and its length in protocol units (R13). -/
structure Pulse where
  kind : PulseKind
  units : Nat
deriving DecidableEq, Repr

/-- The output actions of the trace (R49). -/
inductive Action where
  /-- A sensor request, port `SENS_REQ`. -/
  | sensorReq
  /-- The frame at transmission start. -/
  | tx (f : Frame)
  /-- A pulse begins. -/
  | pulse (p : Pulse)
  /-- The block suspends for `s` seconds, port `SLEEP`. -/
  | sleep (s : Nat)
deriving DecidableEq, Repr

/-- The events one unit of the block posts for the next step (R206): `TICK` and `MOD_START` by the control
FSM, `TX_DONE` by the modulator. -/
inductive Posted where
  | tick
  | modStart
  | txDone
deriving DecidableEq, Repr

/-- One entry of the stimulus (the model's own, log entry 4): the event words that arrive together (none:
nothing arrives, and the block's own timers run), or a datapath unit or symbol driven directly (R242).
`surplus w` is the second non-reset word of such a bundle once its first is taken: it faults (R207). -/
inductive Input where
  | events (ws : List EventWord)
  | surplus (w : EventWord)
  | unit (u : UnitWord)
  | symbol (c : BitVec 2)
deriving DecidableEq, Repr

/-- The output of a datapath unit or symbol driven directly (the model's own, log entry 5). -/
inductive UnitOut where
  | none
  | byte (b : Byte)
  | frame (f : Frame)
  | flag (b : Bool)
  | degrees (t : Int)
  | pulses (ps : List Pulse)
deriving DecidableEq, Repr

/-- The fault reasons of R201, the complete list. They are the contents of the register FAULT: raising one
is a next state (R200), from which `RESET` still leads on, so no step of the model ends in
`Host.Outcome.fault` (log entry 12). Each errs toward unprovable and is safe. -/
inductive Fault where
  /-- Raised by BUILD_FRAME on an input outside `[P_TEMP_MIN, P_TEMP_MAX]` (R136). Safe. -/
  | contractViolation
  /-- Raised by a known event in a state that does not accept it, and by MSTATE = 0b111 (R87). Safe. -/
  | illegalEvent
  /-- Raised by a reserved event code or a nonzero reserved payload (R86). Safe. -/
  | reservedEncoding
deriving DecidableEq, Repr

/-- Why the model gives no meaning. -/
inductive Refusal where
  /-- An instruction without a meaning; no arm of `exec` answers it. Safe. -/
  | notModelled (mnemonic : String)
  /-- The step's answer to a parameter set that breaks a constraint of R7: it is refused (R9). Safe. -/
  | badParameters
  /-- The step's answer to a directly driven unit word whose select or unused bits R89 assigns no unit.
  Safe. -/
  | unassignedUnit
deriving DecidableEq, Repr

/-- The state. Fields up to `pending` are the spec's; `inbox`, `trace`, `unitOut`, `resets` and `waits`
are the model's own. EMIT_PIN (R36), T_C, TRIGGER and the other signals of R41 are computed from these. -/
structure State where
  /-- The parameters: configuration, never written by a step (R42). -/
  cfg : Params
  /-- `CSTATE` (R20). -/
  cstate : CState
  /-- `REPORTED` (R22). -/
  reported : Bool
  /-- `LAST_C` (R23). -/
  lastC : Word32
  /-- `CYCLES`, unsigned of `P_CNT_W` bits (R24). -/
  cycles : Nat
  /-- `CYC_SNAP`, unsigned of `P_CNT_W` bits (R25). -/
  cycSnap : Nat
  /-- `SAMPLE_MC` (R27). -/
  sampleMc : Word32
  /-- `FRAME[0..5]` (R28). -/
  frame : Frame
  /-- `MSTATE` (R30). -/
  mstate : MState
  /-- `MCOPY` (R31). -/
  mcopy : Bool
  /-- `MBIT`; the values 48 to 63 of its 6 bits are never held (R32; log entry 13). -/
  mbit : Fin 48
  /-- `MTIMER`, protocol units left of the pulse being sent (R33). -/
  mtimer : Nat
  /-- `CARRIER_EN` (R34). -/
  carrierEn : Bool
  /-- `CPHASE`, microseconds since the last rise of CARRIER_EN, the start of the last mark (R35, R179); rational
  (log entry 18). -/
  cphase : Rat
  /-- `STIMER_ARMED` (R37). -/
  stimerArmed : Bool
  /-- `STIMER_REM`, seconds left (R37). -/
  stimerRem : Nat
  /-- `SREQ` (R38). -/
  sreq : Bool
  /-- `FAULT` (R39). -/
  fault : Option Fault
  /-- The posted internal event, taken as the next step (R206). -/
  pending : Option Posted
  /-- What the environment delivers, first entry next (log entry 4). -/
  inbox : List Input
  /-- The trace so far, oldest first (R49). -/
  trace : List Action
  /-- The output of the unit driven last (log entry 5). -/
  unitOut : UnitOut
  /-- How many `RESET` steps were taken; picks the free values they leave (log entry 3). -/
  resets : Nat
  /-- How many steps the block has waited awake; picks the free time they take (log entry 19). -/
  waits : Nat
deriving DecidableEq, Repr

/-- The machine right after reset (R230, R232): `SampleEntry` has run, so one sensor request is outstanding
and stands in the trace. SAMPLE_MC and FRAME have no reset value in the spec; zero is the model's
(DESIGN CHOICE, log entry 2). The parameters are R7's defaults (log entry 1). -/
def State.reset : State where
  cfg := Params.defaults
  cstate := .awakeSampling
  reported := false
  lastC := 0#32
  cycles := 0
  cycSnap := 0
  sampleMc := 0#32
  frame := ⟨0#8, 0#8, 0#8, 0#8, 0#8, 0#8⟩
  mstate := .idle
  mcopy := false
  mbit := 0
  mtimer := 0
  carrierEn := false
  cphase := 0
  stimerArmed := false
  stimerRem := 0
  sreq := true
  fault := none
  pending := none
  inbox := []
  trace := [.sensorReq]
  unitOut := .none
  resets := 0
  waits := 0

/-- The outcome of a step. -/
abbrev Result := Host.Outcome State Fault Refusal

end Sys2Proof.Machine
end

