-- ==== Sys2Proof/Machine/Operands.lean ====
section
/-! DEFINITION. The datapath values of the block, computed exactly: operand assembly (spec R93), the frame
encoder's units (R131, R133, R135, R137), the frame bits in on-air order (R53, R54), and the pure
pulse-train functions (R161 to R166). -/

namespace Sys2Proof.Machine

/-! ### Temperatures -/

/-- `TRUNC_C` (R105): millidegrees to whole degrees, rounded toward zero (R11's `trunc_div`). -/
def truncC (v : Word32) : Int := Int.tdiv v.toInt 1000

/-- R11's `clamp`. -/
def clamp (x lo hi : Int) : Int := if x < lo then lo else if x > hi then hi else x

/-- `CLAMP_T` (R137). -/
def clampT (p : Params) (t : Int) : Int := clamp t p.tempMin p.tempMax

/-! ### Bytes and frames -/

/-- `REV8` (R131): `REV8(b)[7 - i] = b[i]`. -/
def rev8 (b : Byte) : Byte := b.reverse

/-- One step of R133's running sum, modulo 256. -/
def checksumStep (acc b : Byte) : Byte := acc - rev8 b

/-- The running sum of R133 over bytes 0 to 4, from 0. -/
def checksumAcc (b0 b1 b2 b3 b4 : Byte) : Byte := [b0, b1, b2, b3, b4].foldl checksumStep 0#8

/-- `CHECKSUM` (R133). -/
def checksum (b0 b1 b2 b3 b4 : Byte) : Byte := rev8 (checksumAcc b0 b1 b2 b3 b4)

/-- The follow-me byte `u8(t + 1)` (R75). -/
def followMe (t : Int) : Byte := BitVec.ofInt 8 (t + 1)

/-- The frame R135 builds for t, its input contract aside. -/
def makeFrame (p : Params) (t : Int) : Frame where
  b0 := p.f0
  b1 := p.f1
  b2 := p.f2
  b3 := p.f3
  b4 := followMe t
  b5 := checksum p.f0 p.f1 p.f2 p.f3 (followMe t)

/-- `BUILD_FRAME` (R135): no frame for an input outside the contract of R136. -/
def buildFrame (p : Params) (t : Int) : Option Frame :=
  if p.tempMin ≤ t ∧ t ≤ p.tempMax then some (makeFrame p t) else none

/-- `FRAME[i]` (R28). -/
def frameByte (f : Frame) : Fin 6 → Byte
  | 0 => f.b0
  | 1 => f.b1
  | 2 => f.b2
  | 3 => f.b3
  | 4 => f.b4
  | 5 => f.b5

/-- Frame bit k, `FRAME[k div 8][7 - (k mod 8)]` (R53). -/
def frameBit (f : Frame) (k : Fin 48) : Bool :=
  (frameByte f ⟨k.val / 8, by have := k.isLt; omega⟩).getLsbD (7 - k.val % 8)

/-- The bit sent at index k of copy c (R53, R173). -/
def sentBit (f : Frame) (c : Bool) (k : Fin 48) : Bool := frameBit f k ^^ c

/-- The frame as a 48-bit word, `FRAME[0]` in bits 47..40 (R54). -/
def frameWord (f : Frame) : BitVec 48 := f.b0 ++ (f.b1 ++ (f.b2 ++ (f.b3 ++ (f.b4 ++ f.b5))))

/-- The complemented bytes `~f[0..5]` (R81, R140). -/
def frameCompl (f : Frame) : Frame := ⟨~~~f.b0, ~~~f.b1, ~~~f.b2, ~~~f.b3, ~~~f.b4, ~~~f.b5⟩

/-! ### Pulses -/

/-- `Mark(d)` (R13). -/
def mark (d : Nat) : Pulse := ⟨.mark, d⟩

/-- `Space(d)` (R13). -/
def space (d : Nat) : Pulse := ⟨.space, d⟩

/-- The space after a bit's mark, in units (R79, R173). -/
def bitSpaceUnits (p : Params) (b : Bool) : Nat := if b then p.oneSpace else p.zeroSpace

/-- `SYM_HDR` (R161). -/
def symHdr (p : Params) : List Pulse := [mark p.hdrMark, space p.hdrSpace]

/-- `SYM_BIT0` (R162). -/
def symBit0 (p : Params) : List Pulse := [mark p.bitMark, space p.zeroSpace]

/-- `SYM_BIT1` (R163). -/
def symBit1 (p : Params) : List Pulse := [mark p.bitMark, space p.oneSpace]

/-- `SYM_FTR` (R164). -/
def symFtr (p : Params) : List Pulse := [mark p.ftrMark, space p.ftrSpace]

/-- The symbol of a bit as sent (R79). -/
def symBit (p : Params) (b : Bool) : List Pulse := if b then symBit1 p else symBit0 p

/-- `COPY(f, c)` (R165). -/
def copyPulses (p : Params) (f : Frame) (c : Bool) : List Pulse :=
  symHdr p ++ (List.finRange 48).flatMap (fun k => symBit p (sentBit f c k)) ++ symFtr p

/-- `PULSE_TRAIN(f)` (R166). -/
def pulseTrain (p : Params) (f : Frame) : List Pulse := copyPulses p f false ++ copyPulses p f true

/-- A pulse train's length in protocol units (R13, R168). -/
def trainUnits (ps : List Pulse) : Nat := (ps.map Pulse.units).sum

end Sys2Proof.Machine
end

