-- ==== Sys2Proof/Machine/Flags.lean ====
section
/-! DEFINITION. The block has no flags (spec R40). What stands in their place, the Boolean conditions its
rules compute: the transmit trigger (R104), frame validity (R138), the carrier level (R179, R36), and the
carrier column of the modulator states (R30). -/

namespace Sys2Proof.Machine

/-- `delta_ok` of R104: never reported, or the whole-degree change is at least P_DELTA. -/
def deltaOk (p : Params) (reported : Bool) (lastC : Word32) (t : Int) : Bool :=
  !reported || decide ((t - lastC.toInt).natAbs ≥ p.delta)

/-- `time_ok` of R104. -/
def timeOk (p : Params) (cycles : Nat) : Bool := decide (cycles ≥ p.ratio)

/-- `TRIGGER` (R104) on the decision state of s and a whole-degree sample. -/
def trigger (s : State) (t : Int) : Bool :=
  deltaOk s.cfg s.reported s.lastC t || timeOk s.cfg s.cycles

/-- `VERIFY_FRAME` (R138). -/
def verifyFrame (f : Frame) : Bool := decide (checksum f.b0 f.b1 f.b2 f.b3 f.b4 = f.b5)

/-- `x mod m` on the rationals: x less m times the whole number of m in it (R179). -/
def ratMod (x : Rat) (m : Nat) : Rat := x - (m : Rat) * (((x / (m : Rat)).floor : Int) : Rat)

/-- `carrier_high` of R179, at τ microseconds. -/
def carrierHigh (p : Params) (tau : Rat) : Bool :=
  decide (ratMod (tau * (p.carrierHz : Rat)) 1000000 * 100 < ((p.dutyPct * 1000000 : Nat) : Rat))

/-- `EMIT_PIN` (R36, R179). -/
def emitPin (s : State) : Bool := s.carrierEn && carrierHigh s.cfg s.cphase

/-- The emitter's level τ microseconds into a pulse of the trace (R49, R179). -/
def pulseLevel (p : Params) (q : Pulse) (tau : Rat) : Bool :=
  decide (q.kind = .mark) && carrierHigh p tau

/-- The carrier column of R30; R34's CARRIER_EN as a function of MSTATE. -/
def carrierOf : MState → Bool
  | .idle => false
  | .hdrMark => true
  | .hdrSpace => false
  | .bitMark => true
  | .bitSpace => false
  | .ftrMark => true
  | .ftrSpace => false
  | .reserved => false

end Sys2Proof.Machine
end

