-- ==== Sys2Proof/Machine/Ops.lean ====
section
/-! DEFINITION. The named operations the meanings share: raising a fault (spec R200) and the way out of it
(R209, R230), the entry actions (R108, R109), starting a pulse (R170 to R176), and time passing (R211,
R205). The block has no addressable memory, so there is no memory operation (R50). -/

namespace Sys2Proof.Machine

/-! ### Faults -/

/-- Raising a fault, R200: FAULT is written and nothing else. FAULT is sticky (R39): a reason already
there stays. -/
def raise (r : Fault) (s : State) : State := { s with fault := some (s.fault.getD r) }

/-- How every step but `RESET` is taken. A faulted block takes no step (R200): the state stays. With MSTATE
= 0b111, or when the state does not accept the event, `IllegalEvent` is raised (R87). Otherwise the
step's own effect. -/
def gate (s : State) (accepts : Prop) [Decidable accepts] (effect : State) : Result :=
  match s.fault with
  | some _ => .next s
  | none => if s.mstate = .reserved ∨ ¬ accepts then .next (raise .illegalEvent s) else .next effect

/-! ### Trace, posted events, unit outputs -/

/-- `emit` (R12): the action joins the end of the trace. -/
def emit (a : Action) (s : State) : State := { s with trace := s.trace ++ [a] }

/-- The posted event p is no longer pending once it is taken (R206). -/
def takePosted (p : Posted) (s : State) : State :=
  { s with pending := if s.pending = some p then none else s.pending }

/-- `post`: the event is taken as the next step (R106, R176). -/
def post (p : Posted) (s : State) : State := { s with pending := some p }

/-- The output of a unit driven directly; no register of the block changes (R142). -/
def outputUnit (o : UnitOut) (s : State) : State := { s with unitOut := o }

/-! ### Entry actions of the control FSM -/

/-- `SleepEntry` (R108). -/
def sleepEntry (s : State) : State :=
  emit (.sleep s.cfg.wakeS) { s with cstate := .asleep, stimerArmed := true, stimerRem := s.cfg.wakeS }

/-- `SampleEntry` (R109). -/
def sampleEntry (s : State) : State := emit .sensorReq { s with cstate := .awakeSampling, sreq := true }

/-- The loads of R230, before its `SampleEntry`. SAMPLE_MC and FRAME become free values. The parameters,
the trace and what the environment has yet to deliver are no registers and stay; the pending internal
event is discarded. -/
def resetLoads (s : State) : State :=
  { s with
    fault := none
    reported := false
    lastC := 0#32
    cycles := 0
    cycSnap := 0
    sampleMc := Config.freeSample s.resets
    frame := Config.freeFrame s.resets
    mstate := .idle
    mcopy := false
    mbit := 0
    mtimer := 0
    carrierEn := false
    cphase := 0
    stimerArmed := false
    stimerRem := 0
    pending := none
    resets := s.resets + 1 }

/-! ### Pulses of the modulator -/

/-- A mark of d units starts in modulator state m: the carrier is on, its phase restarts, the timer is
loaded, and the pulse joins the trace (R170, R172, R174, R176). -/
def startMark (m : MState) (d : Nat) (s : State) : State :=
  emit (.pulse (mark d)) { s with mstate := m, carrierEn := true, cphase := 0, mtimer := d }

/-- A space of d units starts in modulator state m (R171, R173, R175). -/
def startSpace (m : MState) (d : Nat) (s : State) : State :=
  emit (.pulse (space d)) { s with mstate := m, carrierEn := false, mtimer := d }

/-! ### Time -/

/-- CPHASE after `us` more microseconds. The carrier generator advances it with time, in marks, spaces and while
the sensor is waited for (R48, C13): it is the time since the last rise of CARRIER_EN (R179), and only the
steps that start a mark, and RESET, set it back to 0. In ASLEEP the generator is not active and CPHASE, as
every register, stays (R210; log entry 9). -/
def advancePhase (us : Rat) (s : State) : Rat := s.cphase + us

/-- One protocol unit of `P_U_US` microseconds passes while a pulse is timed (R33, R211). -/
def elapseUnit (s : State) : State :=
  { s with mtimer := s.mtimer - 1, cphase := advancePhase (s.cfg.uUs : Nat) s }

/-- One second passes while the block sleeps (R205). Every other register survives the sleep unchanged
(R210). -/
def elapseSecond (s : State) : State := { s with stimerRem := s.stimerRem - 1 }

/-- Time passes while the block waits awake: an open amount (R244, log entry 19). -/
def elapseWait (s : State) : State :=
  { s with cphase := advancePhase (Config.freeWait s.waits) s, waits := s.waits + 1 }

/-- The rest of the pulse being timed passes: `PULSE_END` is the expiry of MTIMER (R33, R211), so a word
that delivers it stands for that time having passed (DEDUCED, log entry 10). -/
def finishPulse (s : State) : State :=
  { s with mtimer := 0, cphase := advancePhase (s.cfg.uUs * s.mtimer : Nat) s }

/-- The rest of the sleep passes: `WAKE` is the expiry of STIMER_REM (R205; DEDUCED, log entry 10). -/
def finishSleep (s : State) : State := { s with stimerRem := 0 }

end Sys2Proof.Machine
end

