-- ==== Sys2Proof/Machine/Control.lean ====
section
/-! DEFINITION. The control FSM: the six control keys (spec R101 to R107, R230). -/

namespace Sys2Proof.Machine

/-- `RESET` (R230), taken in every state, a faulted one included. -/
def execReset (s : State) : Result := .next (sampleEntry (resetLoads s))

/-- The effect of `WAKE` in ASLEEP (R101): the count before the increment goes to CYC_SNAP. -/
def wakeEffect (s : State) : State :=
  sampleEntry
    { s with cycSnap := s.cycles, cycles := (s.cycles + 1) % 2 ^ s.cfg.cntW, stimerArmed := false }

/-- `WAKE` (R101). -/
def execWake (s : State) : Result := gate s (s.cstate = .asleep) (wakeEffect s)

/-- The effect of `SENSE_OK v` in AWAKE_SAMPLING (R102); the control FSM then takes `TICK`. -/
def senseOkEffect (v : Word32) (s : State) : State :=
  post .tick { s with sampleMc := v, sreq := false, cstate := .awakeDeciding }

/-- `SENSE_OK v` (R102). -/
def execSenseOk (v : Word32) (s : State) : Result := gate s (s.cstate = .awakeSampling) (senseOkEffect v s)

/-- The effect of `SENSE_FAIL` in AWAKE_SAMPLING (R103): the wake increment is taken back only with
P_FAIL_UNDO_INC. -/
def senseFailEffect (s : State) : State :=
  sleepEntry { s with sreq := false, cycles := if s.cfg.failUndoInc then s.cycSnap else s.cycles }

/-- `SENSE_FAIL` (R103). -/
def execSenseFail (s : State) : Result := gate s (s.cstate = .awakeSampling) (senseFailEffect s)

/-- The transmit branch of `TICK` (R106): the clamped sample is encoded into FRAME and `MOD_START` posted.
An encoder refusal would be a fault that writes nothing else (R136, R200); the clamp keeps it out of
reach (R116). -/
def transmitEffect (s : State) : State :=
  match buildFrame s.cfg (clampT s.cfg (truncC s.sampleMc)) with
  | some f => post .modStart { s with frame := f, cstate := .awakeTransmitting }
  | none => raise .contractViolation s

/-- The effect of `TICK` in AWAKE_DECIDING (R106). -/
def tickEffect (s : State) : State :=
  if trigger s (truncC s.sampleMc) then transmitEffect s else sleepEntry (takePosted .tick s)

/-- `TICK` (R106). -/
def execTick (s : State) : Result := gate s (s.cstate = .awakeDeciding) (tickEffect s)

/-- The effect of `TX_DONE` in AWAKE_TRANSMITTING (R107): LAST_C takes the unclamped whole degrees. -/
def txDoneEffect (s : State) : State :=
  sleepEntry
    { takePosted .txDone s with
      lastC := BitVec.ofInt 32 (truncC s.sampleMc), reported := true, cycles := 0 }

/-- `TX_DONE` (R107). -/
def execTxDone (s : State) : Result := gate s (s.cstate = .awakeTransmitting) (txDoneEffect s)

end Sys2Proof.Machine
end

