-- ==== Sys2Proof/Machine/Modulator.lean ====
section
/-! DEFINITION. The modulator FSM: the seven modulator keys (spec R170 to R176). A `PULSE_END` key names the
state it is taken in; in another state the meaning raises `IllegalEvent` (R87). -/

namespace Sys2Proof.Machine

/-- The effect of `MOD_START` in M_IDLE (R170). -/
def modStartEffect (s : State) : State :=
  startMark .hdrMark s.cfg.hdrMark
    (emit (.tx s.frame) { takePosted .modStart s with mcopy := false, mbit := 0 })

/-- `MOD_START` (R170). -/
def execModStart (s : State) : Result := gate s (s.mstate = .idle) (modStartEffect s)

/-- `MOD_HDR_MARK_END` (R171). -/
def execModHdrMarkEnd (s : State) : Result :=
  gate s (s.mstate = .hdrMark) (startSpace .hdrSpace s.cfg.hdrSpace s)

/-- `MOD_HDR_SPACE_END` (R172). -/
def execModHdrSpaceEnd (s : State) : Result :=
  gate s (s.mstate = .hdrSpace) (startMark .bitMark s.cfg.bitMark s)

/-- `MOD_BIT_MARK_END` (R173): the one step whose output depends on frame data. -/
def execModBitMarkEnd (s : State) : Result :=
  gate s (s.mstate = .bitMark)
    (startSpace .bitSpace (bitSpaceUnits s.cfg (sentBit s.frame s.mcopy s.mbit)) s)

/-- The effect of `MOD_BIT_SPACE_END` (R174): the next bit, or the footer after bit 47. -/
def bitSpaceEndEffect (s : State) : State :=
  if h : s.mbit.val < 47 then
    startMark .bitMark s.cfg.bitMark { s with mbit := ⟨s.mbit.val + 1, by omega⟩ }
  else startMark .ftrMark s.cfg.ftrMark s

/-- `MOD_BIT_SPACE_END` (R174). -/
def execModBitSpaceEnd (s : State) : Result := gate s (s.mstate = .bitSpace) (bitSpaceEndEffect s)

/-- `MOD_FTR_MARK_END` (R175). -/
def execModFtrMarkEnd (s : State) : Result :=
  gate s (s.mstate = .ftrMark) (startSpace .ftrSpace s.cfg.ftrSpace s)

/-- The effect of `MOD_FTR_SPACE_END` (R176): the inverted copy, or the end of the transmission. -/
def ftrSpaceEndEffect (s : State) : State :=
  if s.mcopy = false then startMark .hdrMark s.cfg.hdrMark { s with mcopy := true, mbit := 0 }
  else post .txDone { s with mstate := .idle, mbit := 0, mcopy := false }

/-- `MOD_FTR_SPACE_END` (R176). -/
def execModFtrSpaceEnd (s : State) : Result := gate s (s.mstate = .ftrSpace) (ftrSpaceEndEffect s)

end Sys2Proof.Machine
end

