-- ==== Sys2Proof/Machine/Symbols.lean ====
section
/-! DEFINITION. The four on-air symbols (spec R161 to R164) put out directly. -/

namespace Sys2Proof.Machine

/-- `SYM_HDR` (R161). -/
def execSymHdr (s : State) : Result := gate s True (outputUnit (.pulses (symHdr s.cfg)) s)

/-- `SYM_BIT0` (R162). -/
def execSymBit0 (s : State) : Result := gate s True (outputUnit (.pulses (symBit0 s.cfg)) s)

/-- `SYM_BIT1` (R163). -/
def execSymBit1 (s : State) : Result := gate s True (outputUnit (.pulses (symBit1 s.cfg)) s)

/-- `SYM_FTR` (R164). -/
def execSymFtr (s : State) : Result := gate s True (outputUnit (.pulses (symFtr s.cfg)) s)

end Sys2Proof.Machine
end

