-- ==== Sys2Proof/Machine/Units.lean ====
section
/-! DEFINITION. The ten datapath units (spec R89) driven directly, each over the function the block itself
uses. The output goes to the model's `unitOut`; no register changes (R142, R41). -/

namespace Sys2Proof.Machine

/-- `REV8` (R131). -/
def execRev8 (b : Byte) (s : State) : Result := gate s True (outputUnit (.byte (rev8 b)) s)

/-- `CHECKSUM` (R133). -/
def execChecksum (b0 b1 b2 b3 b4 : Byte) (s : State) : Result :=
  gate s True (outputUnit (.byte (checksum b0 b1 b2 b3 b4)) s)

/-- What `BUILD_FRAME` does to the state: the frame is put out, or `ContractViolation` is raised and no
frame produced (R135, R136). -/
def buildFrameEffect (t : Int) (s : State) : State :=
  match buildFrame s.cfg t with
  | some f => outputUnit (.frame f) s
  | none => raise .contractViolation s

/-- `BUILD_FRAME` (R135). -/
def execBuildFrame (t : Int) (s : State) : Result := gate s True (buildFrameEffect t s)

/-- `VERIFY_FRAME` (R138). -/
def execVerifyFrame (f : Frame) (s : State) : Result := gate s True (outputUnit (.flag (verifyFrame f)) s)

/-- `CLAMP_T` (R137). -/
def execClampT (t : Int) (s : State) : Result := gate s True (outputUnit (.degrees (clampT s.cfg t)) s)

/-- `TRUNC_C` (R105). -/
def execTruncC (v : Word32) (s : State) : Result := gate s True (outputUnit (.degrees (truncC v)) s)

/-- `TRIGGER` (R104), on the decision registers and the whole-degree sample given. -/
def execTrigger (t : Int) (s : State) : Result := gate s True (outputUnit (.flag (trigger s t)) s)

/-- `COPY` (R165). -/
def execCopy (f : Frame) (c : Bool) (s : State) : Result :=
  gate s True (outputUnit (.pulses (copyPulses s.cfg f c)) s)

/-- `PULSE_TRAIN` (R166). -/
def execPulseTrain (f : Frame) (s : State) : Result :=
  gate s True (outputUnit (.pulses (pulseTrain s.cfg f)) s)

/-- `CARRIER` (R179): EMIT_PIN from the registers CARRIER_EN and CPHASE. -/
def execCarrier (s : State) : Result := gate s True (outputUnit (.flag (emitPin s)) s)

end Sys2Proof.Machine
end

