-- ==== Sys2Proof/Machine/Dispatch.lean ====
section
/-! DEFINITION. The dispatch: one arm per instruction, each a direct call of its meaning. -/

namespace Sys2Proof.Machine

def exec (i : Instr) (s : State) : Host.Outcome State Fault Refusal :=
  match i with
  | .reset => Sys2Proof.Machine.execReset s
  | .wake => Sys2Proof.Machine.execWake s
  | .senseOk v => Sys2Proof.Machine.execSenseOk v s
  | .senseFail => Sys2Proof.Machine.execSenseFail s
  | .tick => Sys2Proof.Machine.execTick s
  | .txDone => Sys2Proof.Machine.execTxDone s
  | .modStart => Sys2Proof.Machine.execModStart s
  | .modHdrMarkEnd => Sys2Proof.Machine.execModHdrMarkEnd s
  | .modHdrSpaceEnd => Sys2Proof.Machine.execModHdrSpaceEnd s
  | .modBitMarkEnd => Sys2Proof.Machine.execModBitMarkEnd s
  | .modBitSpaceEnd => Sys2Proof.Machine.execModBitSpaceEnd s
  | .modFtrMarkEnd => Sys2Proof.Machine.execModFtrMarkEnd s
  | .modFtrSpaceEnd => Sys2Proof.Machine.execModFtrSpaceEnd s
  | .rev8 b => Sys2Proof.Machine.execRev8 b s
  | .checksum b0 b1 b2 b3 b4 => Sys2Proof.Machine.execChecksum b0 b1 b2 b3 b4 s
  | .buildFrame t => Sys2Proof.Machine.execBuildFrame t s
  | .verifyFrame f => Sys2Proof.Machine.execVerifyFrame f s
  | .clampT t => Sys2Proof.Machine.execClampT t s
  | .truncC v => Sys2Proof.Machine.execTruncC v s
  | .trigger t => Sys2Proof.Machine.execTrigger t s
  | .copy f c => Sys2Proof.Machine.execCopy f c s
  | .pulseTrain f => Sys2Proof.Machine.execPulseTrain f s
  | .carrier => Sys2Proof.Machine.execCarrier s
  | .symHdr => Sys2Proof.Machine.execSymHdr s
  | .symBit0 => Sys2Proof.Machine.execSymBit0 s
  | .symBit1 => Sys2Proof.Machine.execSymBit1 s
  | .symFtr => Sys2Proof.Machine.execSymFtr s

end Sys2Proof.Machine
end

