-- ==== Sys2Proof/Machine/Fetch.lean ====
section
/-! DEFINITION. Which event the block takes next, and from where: the environment's stimulus, the posted
internal event, or the block's own timers (spec R205 to R207, R211), with RESET first (R207). -/

namespace Sys2Proof.Machine

/-- The event word of a posted event (R71). -/
def postedWord : Posted → EventWord
  | .tick => tickWord
  | .modStart => modStartWord
  | .txDone => txDoneWord

/-- What the next step does. -/
inductive Due where
  /-- An event word is taken. -/
  | word (w : EventWord)
  /-- A second non-reset event, which arrived together with one already taken, faults (R207). -/
  | surplus (w : EventWord)
  /-- A datapath unit is driven. -/
  | unit (u : UnitWord)
  /-- A symbol is put out. -/
  | symbol (c : BitVec 2)
  /-- MSTATE holds the reserved code 0b111 (R87). -/
  | badState
  /-- One protocol unit of the pulse passes (R211). -/
  | unitOfTime
  /-- One second of the sleep passes (R205). -/
  | second
  /-- The block waits awake: the sensor has not answered (R244). -/
  | wait
  /-- Nothing happens: the block is faulted (R200), or its sleep is endless (R205, R210). -/
  | stopped
deriving DecidableEq, Repr

/-- What the block's own timers do when nothing arrives. While a pulse is timed MTIMER counts down, and at 0
`PULSE_END` is taken (R211). While the block sleeps with P_WAKE_S ≥ 1, STIMER_REM counts down, and at 0
`WAKE` is taken; with P_WAKE_S = 0 the timer never fires (R205) and nothing changes (R210). Otherwise the
block waits.
A pulse is never timed while the block sleeps (R61, R178), except where an event is forged (log entry 14);
the spec does not say how the two timers share time there, and the model lets only the pulse timer run and
the sleep timer stand still until the train ends (DESIGN CHOICE, log entry 22). -/
def timersDue (s : State) : Due :=
  if s.mstate = .reserved then .badState
  else if s.mstate ≠ .idle then (if s.mtimer = 0 then .word pulseEndWord else .unitOfTime)
  else if s.cstate ≠ .asleep then .wait
  else if s.stimerArmed = true ∧ 1 ≤ s.cfg.wakeS then (if s.stimerRem = 0 then .word wakeWord else .second)
  else .stopped

/-- Whether `RESET` is among the words an entry of the stimulus brings (R207). -/
def bringsReset : Input → Bool
  | .events ws => ws.contains resetWord
  | .surplus w => w == resetWord
  | .unit _ => false
  | .symbol _ => false

/-- Whether an entry of the stimulus is a second event, left from a bundle whose first was taken (R207). -/
def isSurplus : Input → Bool
  | .events _ => false
  | .surplus _ => true
  | .unit _ => false
  | .symbol _ => false

/-- What an entry of the stimulus makes due when no posted event is pending. -/
def inputDue (s : State) : Input → Due
  | .events (w :: _) => .word w
  | .events [] => timersDue s
  | .surplus w => .surplus w
  | .unit u => .unit u
  | .symbol c => .symbol c

/-- What is left of the stimulus once its next entry's first word is taken. At most one non-reset event can
be pending (R207), so a second word of the bundle is surplus; any further word would find the block
faulted and is lost (R200, log entry 11). -/
def dropInput : List Input → List Input
  | .events (_ :: w :: _) :: rest => .surplus w :: rest
  | _ :: rest => rest
  | [] => []

/-- The posted event's own word, when the stimulus writes it next, is that event made explicit (R92): it is
taken from the stimulus with it. -/
def dropExplicit (w : EventWord) : List Input → List Input
  | .events (v :: vs) :: rest =>
    if v = w then dropInput (.events (v :: vs) :: rest) else .events (v :: vs) :: rest
  | inputs => inputs

/-- The posted event, if its turn has come: a second event that arrived before it was posted goes first
(log entry 4). -/
def nextPosted (s : State) : Option Posted :=
  if s.inbox.head?.any isSurplus then none else s.pending

/-- What the next step does. `RESET` has priority over every other event (R207). A faulted block takes
nothing else (R200). A second event that arrived together with the one just taken faults (R207). A posted
internal event is the next step, in zero time (R102, R106, R176, R243). Then comes what the environment
delivers, and when nothing arrives the timers run. -/
def due (s : State) : Due :=
  if s.inbox.head?.any bringsReset then .word resetWord
  else if s.fault.isSome then .stopped
  else match nextPosted s with
    | some p => .word (postedWord p)
    | none =>
      match s.inbox with
      | inp :: _ => inputDue s inp
      | [] => timersDue s

/-- The stimulus left after that step. What arrives together with `RESET` is discarded (R207, R234), and what
arrives at a faulted block is lost (DEDUCED, log entry 11). -/
def inboxAfter (s : State) : List Input :=
  if s.inbox.head?.any bringsReset then s.inbox.tail
  else if s.fault.isSome then s.inbox.tail
  else match nextPosted s with
    | some p => dropExplicit (postedWord p) s.inbox
    | none => dropInput s.inbox

/-- The state as the step finds it, with the stimulus moved on. -/
def arrive (s : State) : State := { s with inbox := inboxAfter s }

/-- Before an expiry event runs, the time its timer had left passes (R205, R211; log entry 10). -/
def expire (i : Instr) (s : State) : State :=
  match i with
  | .wake => finishSleep s
  | .modHdrMarkEnd => finishPulse s
  | .modHdrSpaceEnd => finishPulse s
  | .modBitMarkEnd => finishPulse s
  | .modBitSpaceEnd => finishPulse s
  | .modFtrMarkEnd => finishPulse s
  | .modFtrSpaceEnd => finishPulse s
  | .reset | .senseOk _ | .senseFail | .tick | .txDone | .modStart => s
  | .rev8 _ | .checksum _ _ _ _ _ | .buildFrame _ | .verifyFrame _ | .clampT _ | .truncC _ => s
  | .trigger _ | .copy _ _ | .pulseTrain _ | .carrier => s
  | .symHdr | .symBit0 | .symBit1 | .symFtr => s

/-- s ready to take exactly the event that is placed next: not faulted, nothing posted, MSTATE legal. -/
def readyToTake (s : State) : State :=
  { s with
    fault := none
    pending := none
    mstate := if s.mstate = .reserved then .idle else s.mstate }

/-- s with a code word placed where the step takes its next event: its event word at the head of the
stimulus, and the control or modulator state its key names (log entry 17). -/
def placeCode (c : CodeWord) (s : State) : State :=
  match c with
  | .ctl k =>
    { readyToTake s with
      cstate := if ctlKeyEvent k = resetWord then s.cstate else ctlKeyState k
      inbox := .events [ctlKeyEvent k] :: s.inbox }
  | .mod k =>
    { readyToTake s with
      mstate := if modKeyEvent k = resetWord then (readyToTake s).mstate else modKeyState k
      inbox := .events [modKeyEvent k] :: s.inbox }
  | .unit u => { readyToTake s with inbox := .unit u :: s.inbox }
  | .sym c => { readyToTake s with inbox := .symbol c :: s.inbox }

/-- The same from a word numbered as the opcode table numbers it; a word that is none changes nothing. -/
def placeWord (nbits w : Nat) (s : State) : State :=
  match tableWord nbits w with
  | some c => placeCode c s
  | none => s

end Sys2Proof.Machine
end

