-- ==== Sys2Proof/Machine/Run.lean ====
section
/-! DEFINITION. Taking what is due: an event word through the decoder (spec R85), a unit or symbol through
its select, or time passing. -/

namespace Sys2Proof.Machine

/-- A verdict carried out. A reserved encoding and an illegal event raise their fault and change nothing else
(R86, R87, R200). A unit select without a unit is refused: R89 gives it no meaning (log entry 15). -/
def carryOut (v : Verdict) (s : State) : Result :=
  match v with
  | .legal i => exec i s
  | .reservedEncoding => .next (raise .reservedEncoding s)
  | .illegalEvent => .next (raise .illegalEvent s)
  | .unassignedUnit => .refused .unassignedUnit

/-- An event word is taken, decoded with the current CSTATE and MSTATE (R85). The time a timer had left
passes before its expiry event runs. A faulted block takes only `RESET` (R200). -/
def takeWord (w : EventWord) (s : State) : Result :=
  if s.fault.isSome ∧ w ≠ resetWord then .next s
  else match decodeEvent s.cstate s.mstate w with
    | .legal i => exec i (expire i s)
    | .reservedEncoding => carryOut .reservedEncoding s
    | .illegalEvent => carryOut .illegalEvent s
    | .unassignedUnit => carryOut .unassignedUnit s

/-- The fault of a second event: the block takes one event at a time, so no state accepts it (R207, R87). A
word that is no event of R71 is a reserved encoding there too (R86). -/
def surplusVerdict (w : EventWord) : Verdict :=
  if isReservedWord w then .reservedEncoding else .illegalEvent

/-- What is due happens. -/
def runDue (d : Due) (s : State) : Result :=
  match d with
  | .word w => takeWord w s
  | .surplus w => carryOut (surplusVerdict w) s
  | .unit u => carryOut (decodeUnit u) s
  | .symbol c => exec (decodeSymbol c) s
  | .badState => .next (raise .illegalEvent s)
  | .unitOfTime => .next (elapseUnit s)
  | .second => .next (elapseSecond s)
  | .wait => .next (elapseWait s)
  | .stopped => .next s

end Sys2Proof.Machine
end

