-- ==== Sys2Proof/Machine/Step.lean ====
section
/-! DEFINITION. The step of the block, and placing a word where it takes its next event. -/

namespace Sys2Proof.Machine

/-- One step: the next event or the next moment of time. A parameter set that breaks a constraint of R7 is
refused (R9); the parameters never change, so checking at every step is checking before the first. -/
def step (s : State) : Host.Outcome State Fault Refusal :=
  if s.cfg.valid then runDue (due s) (arrive s) else .refused .badParameters

/-- s with the word w of nbits bits, numbered as the opcode table numbers it, placed as the very next event.
A key places its event word at the head of the stimulus and sets the control or modulator state it
names; a unit word or symbol code is placed as a unit or symbol to drive (log entry 17). -/
def State.withFetchWord (s : State) (nbits w : Nat) : State := placeWord nbits w s

end Sys2Proof.Machine
end

