-- ==== Sys2Proof/Safety.lean ====
section
/-! DEFINITION. What counts as a safe run, in the terms claims use: the live state (spec R200, R87), the
invariants of the block (R30, R34, R37, R38, R59, R178, R206, R207), the environment's contract (R206), and
runs of steps and of event words (R177, R246). -/

namespace Sys2Proof.Machine

/-- The block is not faulted (R200) and MSTATE is a legal code (R87): it takes the events its state
accepts. -/
def Live (s : State) : Prop := s.fault = none ∧ s.mstate ≠ .reserved

/-- k steps, stopping at the first that answers no next state. -/
def runSteps : Nat → State → Result
  | 0, s => .next s
  | k + 1, s =>
    match step s with
    | .next t => runSteps k t
    | .fault r => .fault r
    | .refused r => .refused r

/-- Event words taken one after the other. -/
def takeWords : List EventWord → State → Result
  | [], s => .next s
  | w :: ws, s =>
    match takeWord w s with
    | .next t => takeWords ws t
    | .fault r => .fault r
    | .refused r => .refused r

/-- The length in units of the pulse MSTATE times, R30's last column; 0 where no pulse is timed. -/
def pulseUnits (s : State) : Nat :=
  match s.mstate with
  | .idle => 0
  | .hdrMark => s.cfg.hdrMark
  | .hdrSpace => s.cfg.hdrSpace
  | .bitMark => s.cfg.bitMark
  | .bitSpace => bitSpaceUnits s.cfg (sentBit s.frame s.mcopy s.mbit)
  | .ftrMark => s.cfg.ftrMark
  | .ftrSpace => s.cfg.ftrSpace
  | .reserved => 0

/-- What holds whatever the environment delivers: MSTATE is a legal code (R30), CARRIER_EN is its carrier
column (R34), CYCLES and CYC_SNAP fit P_CNT_W bits (R24, R25), and CPHASE is not negative (R35). -/
structure CoreInv (s : State) : Prop where
  legal : s.mstate ≠ .reserved
  carrier : s.carrierEn = carrierOf s.mstate
  cycles : s.cycles < 2 ^ s.cfg.cntW
  cycSnap : s.cycSnap < 2 ^ s.cfg.cntW
  phase : 0 ≤ s.cphase

/-- The environment's contract of R206 for one step: `MOD_START` comes only from the control FSM and
`TX_DONE` only from the modulator, so neither is due unless it was posted. -/
def EnvLawful (s : State) : Prop :=
  (due s = .word modStartWord → s.pending = some .modStart) ∧
    (due s = .word txDoneWord → s.pending = some .txDone)

/-- What holds under the contract of R206: the control FSM, the modulator and the timers are in step. -/
structure LoopInv (s : State) : Prop where
  /-- SREQ is set exactly while sampling (R38). -/
  sreq : s.sreq = decide (s.cstate = .awakeSampling)
  /-- The sleep timer is armed exactly while asleep (R37, R240). -/
  armed : s.stimerArmed = decide (s.cstate = .asleep)
  /-- STIMER_REM never exceeds P_WAKE_S (R37). -/
  rem : s.stimerRem ≤ s.cfg.wakeS
  /-- `TICK` is pending exactly while deciding (R206). -/
  tick : s.pending = some .tick ↔ s.cstate = .awakeDeciding
  /-- While the modulator runs, the control FSM is transmitting (R178) and nothing is posted (R207). -/
  busy : s.mstate ≠ .idle → s.cstate = .awakeTransmitting ∧ s.pending = none
  /-- While transmitting with the modulator idle, the train is about to start or has just ended (R61). -/
  turn : s.cstate = .awakeTransmitting → s.mstate = .idle →
    s.pending = some .modStart ∨ s.pending = some .txDone
  /-- `MOD_START` and `TX_DONE` are pending only while transmitting (R206). -/
  posted : s.pending = some .modStart ∨ s.pending = some .txDone → s.cstate = .awakeTransmitting
  /-- While transmitting, FRAME is the frame of the current sample (R59, R106). -/
  frame : s.cstate = .awakeTransmitting →
    s.frame = makeFrame s.cfg (clampT s.cfg (truncC s.sampleMc))
  /-- The modulator at rest holds MBIT = 0 and MCOPY = 0 (R176, R230). -/
  rest : s.mstate = .idle → s.mbit = 0 ∧ s.mcopy = false
  /-- In a header MBIT is 0 (R172). -/
  header : s.mstate = .hdrMark ∨ s.mstate = .hdrSpace → s.mbit = 0
  /-- In a footer MBIT is 47 (R174). -/
  footer : s.mstate = .ftrMark ∨ s.mstate = .ftrSpace → s.mbit = 47
  /-- MTIMER never exceeds the length of the pulse being timed (R33). -/
  timer : s.mtimer ≤ pulseUnits s

end Sys2Proof.Machine
end

