-- ==== Sys2Proof/Certificates/Slice0/Obligations.lean ====
section
/-! DEFINITION. The statements for the provers. A next state written as a record update says the whole
frame: every field not named keeps its value. -/

open Sys2Proof Sys2Proof.Machine

/-! ### Encoding and decoding -/

/-- Decoding what the encoder writes gives the instruction back, with every operand (R83, R84, R89, R78; the
operand places of a unit word are the model's, log entry 6). -/
def Obligations.DecodeOfEncodeIsTheInstruction : Prop :=
  ∀ i : Instr, i.wf = true → decode (encode i) = .legal i

/-- The rows of R83 and R84 by their own mask and match: each key row is taken exactly on the keys it
matches, so no two rows overlap. -/
def Obligations.KeyRowsDecideTheKeys : Prop :=
  (∀ k : CtlKey,
    (ctlKeyInstr k = some .reset ↔ k &&& 0x0FFFFFFFFFF#42 = 0x00100000000#42) ∧
    (ctlKeyInstr k = some .wake ↔ k &&& 0x3FFFFFFFFFF#42 = 0x30200000000#42) ∧
    (∀ v, ctlKeyInstr k = some (.senseOk v) ↔
      k &&& 0x3FF00000000#42 = 0x00300000000#42 ∧ k.extractLsb' 0 32 = v) ∧
    (ctlKeyInstr k = some .senseFail ↔ k &&& 0x3FFFFFFFFFF#42 = 0x00400000000#42) ∧
    (ctlKeyInstr k = some .tick ↔ k &&& 0x3FFFFFFFFFF#42 = 0x10500000000#42) ∧
    (ctlKeyInstr k = some .txDone ↔ k &&& 0x3FFFFFFFFFF#42 = 0x20600000000#42)) ∧
  (∀ k : ModKey,
    (modKeyInstr k = some .reset ↔ k &&& 0x0FFFFFFFFFF#43 = 0x00100000000#43) ∧
    (modKeyInstr k = some .modStart ↔ k &&& 0x7FFFFFFFFFF#43 = 0x01000000000#43) ∧
    (modKeyInstr k = some .modHdrMarkEnd ↔ k &&& 0x7FFFFFFFFFF#43 = 0x11100000000#43) ∧
    (modKeyInstr k = some .modHdrSpaceEnd ↔ k &&& 0x7FFFFFFFFFF#43 = 0x21100000000#43) ∧
    (modKeyInstr k = some .modBitMarkEnd ↔ k &&& 0x7FFFFFFFFFF#43 = 0x31100000000#43) ∧
    (modKeyInstr k = some .modBitSpaceEnd ↔ k &&& 0x7FFFFFFFFFF#43 = 0x41100000000#43) ∧
    (modKeyInstr k = some .modFtrMarkEnd ↔ k &&& 0x7FFFFFFFFFF#43 = 0x51100000000#43) ∧
    (modKeyInstr k = some .modFtrSpaceEnd ↔ k &&& 0x7FFFFFFFFFF#43 = 0x61100000000#43))

/-- The verdict on every 40-bit event word in every pair of states (R85), by code and payload. That a word
with a nonzero reserved payload is reserved in the wrong state too, and that MSTATE = 0b111 makes every known
event but RESET illegal, is log entry 8. -/
def Obligations.EventWordVerdicts : Prop :=
  (∀ w : EventWord, eventWord (evCode w) (evPayload w) = w) ∧
  ∀ (cs : CState) (ms : MState) (c : Byte) (p : Word32),
    (c ∉ [0x01#8, 0x02#8, 0x03#8, 0x04#8, 0x05#8, 0x06#8, 0x10#8, 0x11#8] ∨ (c ≠ 0x03#8 ∧ p ≠ 0#32) →
      decodeEvent cs ms (eventWord c p) = .reservedEncoding) ∧
    decodeEvent cs ms (eventWord 0x01#8 0#32) = .legal .reset ∧
    (c ∈ [0x02#8, 0x03#8, 0x04#8, 0x05#8, 0x06#8, 0x10#8, 0x11#8] → (c = 0x03#8 ∨ p = 0#32) →
      decodeEvent cs .reserved (eventWord c p) = .illegalEvent) ∧
    (ms ≠ .reserved →
      decodeEvent cs ms (eventWord 0x02#8 0#32) = (if cs = .asleep then .legal .wake else .illegalEvent) ∧
      decodeEvent cs ms (eventWord 0x03#8 p) =
        (if cs = .awakeSampling then .legal (.senseOk p) else .illegalEvent) ∧
      decodeEvent cs ms (eventWord 0x04#8 0#32) =
        (if cs = .awakeSampling then .legal .senseFail else .illegalEvent) ∧
      decodeEvent cs ms (eventWord 0x05#8 0#32) =
        (if cs = .awakeDeciding then .legal .tick else .illegalEvent) ∧
      decodeEvent cs ms (eventWord 0x06#8 0#32) =
        (if cs = .awakeTransmitting then .legal .txDone else .illegalEvent) ∧
      decodeEvent cs ms (eventWord 0x10#8 0#32) =
        (if ms = .idle then .legal .modStart else .illegalEvent)) ∧
    decodeEvent cs .idle (eventWord 0x11#8 0#32) = .illegalEvent ∧
    decodeEvent cs .hdrMark (eventWord 0x11#8 0#32) = .legal .modHdrMarkEnd ∧
    decodeEvent cs .hdrSpace (eventWord 0x11#8 0#32) = .legal .modHdrSpaceEnd ∧
    decodeEvent cs .bitMark (eventWord 0x11#8 0#32) = .legal .modBitMarkEnd ∧
    decodeEvent cs .bitSpace (eventWord 0x11#8 0#32) = .legal .modBitSpaceEnd ∧
    decodeEvent cs .ftrMark (eventWord 0x11#8 0#32) = .legal .modFtrMarkEnd ∧
    decodeEvent cs .ftrSpace (eventWord 0x11#8 0#32) = .legal .modFtrSpaceEnd

/-- A few words written out decode to the instruction they stand for: event words, a key and a symbol code
from the spec's tables (R83, R84, R78), and two unit words, whose layout is the model's (log entry 6; that a
select without a unit is the verdict unassignedUnit is log entry 15). -/
def Obligations.SampleWordsDecode : Prop :=
  decodeEvent .asleep .idle 0x0200000000#40 = .legal .wake ∧
  decodeEvent .awakeSampling .idle 0x03FFFFFA24#40 = .legal (.senseOk 0xFFFFFA24#32) ∧
  decodeEvent .awakeDeciding .idle 0x0500000000#40 = .legal .tick ∧
  decodeEvent .awakeTransmitting .hdrMark 0x1100000000#40 = .legal .modHdrMarkEnd ∧
  decodeEvent .asleep .idle 0x0200000001#40 = .reservedEncoding ∧
  decode (.ctl 0x003000061A8#42) = .legal (.senseOk 25000#32) ∧
  decode (.unit 0x1A1#64) = .unassignedUnit ∧
  decode (.unit 0xA101#64) = .legal (.rev8 0xA1#8) ∧
  decode (.sym 0b10#2) = .legal .symBit1

/-! ### The step -/

/-- A step runs the decoded instruction: an event word through the current key, a unit word and a symbol code
through their selects. Around exec the step moves the stimulus on, a second word of the entry left to fault
(R207), and before an expiry event runs the time its timer had left passes (log entries 4 and 10). -/
def Obligations.StepRunsTheDecodedInstruction : Prop :=
  ∀ s : State, s.cfg.valid = true → s.fault = none → s.pending = none →
    (∀ w ws rest i, s.inbox = .events (w :: ws) :: rest → resetWord ∉ w :: ws →
      decodeEvent s.cstate s.mstate w = .legal i →
      step s = exec i (expire i { s with inbox := (ws.take 1).map .surplus ++ rest })) ∧
    (∀ u rest i, s.inbox = .unit u :: rest → decodeUnit u = .legal i →
      step s = exec i { s with inbox := rest }) ∧
    (∀ c rest, s.inbox = .symbol c :: rest → step s = exec (decodeSymbol c) { s with inbox := rest })

/-- A posted internal event is the next step, before anything the environment brings but RESET (R102, R106,
R176). That it goes before an event arriving later, and after a second event that arrived before it was
posted, is log entry 4. -/
def Obligations.PostedEventIsTheNextStep : Prop :=
  ∀ (s : State) (p : Posted), s.cfg.valid = true → s.fault = none → s.pending = some p →
    s.inbox.head?.any bringsReset = false → s.inbox.head?.any isSurplus = false →
    step s = takeWord (postedWord p) { s with inbox := dropExplicit (postedWord p) s.inbox }

/-- RESET is taken in every state, a faulted one included, before every other event; what arrives together
with it is discarded (R207, R234). -/
def Obligations.ResetIsTakenFirst : Prop :=
  ∀ (s : State) (ws : List EventWord) (rest : List Input), s.cfg.valid = true →
    s.inbox = .events ws :: rest → resetWord ∈ ws → step s = exec .reset { s with inbox := rest }

/-- One event at a time (R207): of several non-reset words that arrive together the first is taken and the
second faults in the next step, whatever state the first led to, so the block ends faulted with the rest of
the entry gone. When the fault is raised, and that a reserved word raises its own reason, is log entry 4. -/
def Obligations.SecondEventFaults : Prop :=
  ∀ (s : State) (v w : EventWord) (ws : List EventWord) (rest : List Input),
    s.cfg.valid = true → s.fault = none → s.pending = none →
    s.inbox = .events (v :: w :: ws) :: rest → resetWord ∉ v :: w :: ws →
    ∃ t u, takeWord v { s with inbox := .surplus w :: rest } = .next t ∧ step s = .next t ∧
      step t = .next u ∧ u.fault ≠ none ∧ u = { t with inbox := rest, fault := u.fault } ∧
      (t.fault = none →
        u.fault = some (if isReservedWord w = true then .reservedEncoding else .illegalEvent)) ∧
      (t.fault ≠ none → u.fault = t.fault)

/-- Raising a fault writes FAULT and nothing else; a faulted block takes no step except RESET, which clears
the fault (R200). That such a step is a next state, and what arrives is lost, is log entry 11. -/
def Obligations.FaultedBlockTakesOnlyReset : Prop :=
  (∀ (r : Fault) (s : State), s.fault = none → raise r s = { s with fault := some r }) ∧
  ∀ s : State, s.fault ≠ none →
    (∀ i, i ≠ .reset → exec i s = .next s) ∧
    (∃ t, exec .reset s = .next t ∧ t.fault = none) ∧
    (∀ w, w ≠ resetWord → takeWord w s = .next s) ∧
    (s.cfg.valid = true → s.inbox.head?.any bringsReset = false →
      step s = .next { s with inbox := s.inbox.tail })

/-- The constraints on the parameters, and the refusal of a set that breaks one (R9, with R7's table). -/
def Obligations.InvalidParametersAreRefused : Prop :=
  (∀ p : Params, p.valid = true ↔
    (1 ≤ p.uUs ∧ 1 ≤ p.hdrMark ∧ 1 ≤ p.hdrSpace ∧ 1 ≤ p.bitMark ∧ p.oneSpace > p.zeroSpace ∧
      1 ≤ p.zeroSpace ∧ 1 ≤ p.ftrMark ∧ 1 ≤ p.ftrSpace ∧ 1 ≤ p.carrierHz ∧ (1 ≤ p.dutyPct ∧ p.dutyPct ≤ 99) ∧
      (-1 ≤ p.tempMin ∧ p.tempMin ≤ p.tempMax) ∧ p.tempMax + 1 ≤ 0x7F ∧ 1 ≤ p.cntW)) ∧
  ∀ s : State, s.cfg.valid = false → step s = .refused .badParameters

/-- A reserved encoding raises ReservedEncoding and changes nothing else (R86). -/
def Obligations.ReservedWordsFault : Prop :=
  ∀ (s : State) (c : Byte) (p : Word32), s.fault = none →
    (c.toNat = 0 ∨ (7 ≤ c.toNat ∧ c.toNat ≤ 0x0F) ∨ 0x12 ≤ c.toNat ∨ (c ≠ 0x03#8 ∧ p ≠ 0#32)) →
    takeWord (eventWord c p) s = .next { s with fault := some .reservedEncoding }

/-- A known event in a state that does not accept it raises IllegalEvent and changes nothing else, and so
does MSTATE = 0b111, with an event and without one (R87; the reading of the latter is log entry 8). -/
def Obligations.UnacceptedEventsFault : Prop :=
  ∀ s : State, s.fault = none →
    (s.cstate ≠ .asleep → takeWord wakeWord s = .next { s with fault := some .illegalEvent }) ∧
    (∀ v, s.cstate ≠ .awakeSampling →
      takeWord (senseOkWord v) s = .next { s with fault := some .illegalEvent }) ∧
    (s.cstate ≠ .awakeSampling → takeWord senseFailWord s = .next { s with fault := some .illegalEvent }) ∧
    (s.cstate ≠ .awakeDeciding → takeWord tickWord s = .next { s with fault := some .illegalEvent }) ∧
    (s.cstate ≠ .awakeTransmitting → takeWord txDoneWord s = .next { s with fault := some .illegalEvent }) ∧
    (s.mstate ≠ .idle → takeWord modStartWord s = .next { s with fault := some .illegalEvent }) ∧
    (s.mstate = .idle ∨ s.mstate = .reserved →
      takeWord pulseEndWord s = .next { s with fault := some .illegalEvent }) ∧
    (s.mstate = .reserved → ∀ w, w ≠ resetWord → isReservedWord w = false →
      takeWord w s = .next { s with fault := some .illegalEvent }) ∧
    (s.mstate = .reserved → s.cfg.valid = true → s.pending = none → s.inbox = [] →
      step s = .next { s with fault := some .illegalEvent })

/-! ### The control FSM -/

/-- RESET loads every register, from any state, and runs SampleEntry (R230). SAMPLE_MC and FRAME are left
unspecified: free values (log entry 3). -/
def Obligations.ResetLoadsEveryRegister : Prop :=
  ∀ s : State,
    exec .reset s = .next { s with
      fault := none, reported := false, lastC := 0#32, cycles := 0, cycSnap := 0
      sampleMc := Config.freeSample s.resets, frame := Config.freeFrame s.resets
      mstate := .idle, mcopy := false, mbit := 0, mtimer := 0, carrierEn := false, cphase := 0
      stimerArmed := false, stimerRem := 0, pending := none
      cstate := .awakeSampling, sreq := true, trace := s.trace ++ [.sensorReq]
      resets := s.resets + 1 } ∧
    ∀ cs ms, decodeEvent cs ms 0x0100000000#40 = .legal .reset ∧
      ∀ p, p ≠ 0#32 → decodeEvent cs ms (eventWord 0x01#8 p) = .reservedEncoding

/-- WAKE (R101, with SampleEntry, R109): its effect in ASLEEP, its fault elsewhere, its words. -/
def Obligations.WakeCountsAndSamples : Prop :=
  ∀ s : State, Live s →
    (s.cstate = .asleep →
      exec .wake s = .next { s with
        cycSnap := s.cycles, cycles := (s.cycles + 1) % 2 ^ s.cfg.cntW, stimerArmed := false
        cstate := .awakeSampling, sreq := true, trace := s.trace ++ [.sensorReq] }) ∧
    (s.cstate ≠ .asleep → exec .wake s = .next { s with fault := some .illegalEvent }) ∧
    decodeEvent .asleep s.mstate 0x0200000000#40 = .legal .wake ∧
    ∀ p, p ≠ 0#32 → decodeEvent s.cstate s.mstate (eventWord 0x02#8 p) = .reservedEncoding

/-- SENSE_OK v (R102): every 32-bit sample is accepted, and TICK is posted as the next step. -/
def Obligations.SenseOkHoldsTheSample : Prop :=
  ∀ (s : State) (v : Word32), Live s →
    (s.cstate = .awakeSampling →
      exec (.senseOk v) s = .next { s with
        sampleMc := v, sreq := false, cstate := .awakeDeciding, pending := some .tick }) ∧
    (s.cstate ≠ .awakeSampling → exec (.senseOk v) s = .next { s with fault := some .illegalEvent }) ∧
    decodeEvent .awakeSampling s.mstate (eventWord 0x03#8 v) = .legal (.senseOk v)

/-- SENSE_FAIL (R103, with SleepEntry, R108). -/
def Obligations.SenseFailSleeps : Prop :=
  ∀ s : State, Live s →
    (s.cstate = .awakeSampling →
      exec .senseFail s = .next { s with
        sreq := false, cycles := if s.cfg.failUndoInc = true then s.cycSnap else s.cycles
        cstate := .asleep, stimerArmed := true, stimerRem := s.cfg.wakeS
        trace := s.trace ++ [.sleep s.cfg.wakeS] }) ∧
    (s.cstate ≠ .awakeSampling → exec .senseFail s = .next { s with fault := some .illegalEvent }) ∧
    decodeEvent .awakeSampling s.mstate 0x0400000000#40 = .legal .senseFail ∧
    ∀ p, p ≠ 0#32 → decodeEvent s.cstate s.mstate (eventWord 0x04#8 p) = .reservedEncoding

/-- TICK (R106): the trigger of R104 on the truncated sample decides between building the frame of the clamped
sample, with MOD_START posted, and sleeping. The encoder never refuses here. -/
def Obligations.TickDecides : Prop :=
  ∀ s : State, Live s → s.cfg.valid = true →
    (s.cstate = .awakeDeciding →
      ((s.reported = false ∨ (s.cfg.delta : Int) ≤ |Int.tdiv s.sampleMc.toInt 1000 - s.lastC.toInt| ∨
          s.cfg.ratio ≤ s.cycles) →
        exec .tick s = .next { s with
          frame := makeFrame s.cfg (clampT s.cfg (Int.tdiv s.sampleMc.toInt 1000))
          cstate := .awakeTransmitting, pending := some .modStart }) ∧
      (¬ (s.reported = false ∨ (s.cfg.delta : Int) ≤ |Int.tdiv s.sampleMc.toInt 1000 - s.lastC.toInt| ∨
          s.cfg.ratio ≤ s.cycles) →
        exec .tick s = .next { s with
          cstate := .asleep, stimerArmed := true, stimerRem := s.cfg.wakeS
          pending := if s.pending = some .tick then none else s.pending
          trace := s.trace ++ [.sleep s.cfg.wakeS] })) ∧
    (s.cstate ≠ .awakeDeciding → exec .tick s = .next { s with fault := some .illegalEvent }) ∧
    decodeEvent .awakeDeciding s.mstate 0x0500000000#40 = .legal .tick

/-- TX_DONE (R107): LAST_C reads as the unclamped whole degrees of the sample. -/
def Obligations.TxDoneRecordsTheReport : Prop :=
  ∀ s : State, Live s →
    (s.cstate = .awakeTransmitting →
      ∃ l : Word32, l.toInt = Int.tdiv s.sampleMc.toInt 1000 ∧
        exec .txDone s = .next { s with
          lastC := l, reported := true, cycles := 0
          cstate := .asleep, stimerArmed := true, stimerRem := s.cfg.wakeS
          pending := if s.pending = some .txDone then none else s.pending
          trace := s.trace ++ [.sleep s.cfg.wakeS] }) ∧
    (s.cstate ≠ .awakeTransmitting → exec .txDone s = .next { s with fault := some .illegalEvent }) ∧
    decodeEvent .awakeTransmitting s.mstate 0x0600000000#40 = .legal .txDone

/-! ### The modulator -/

/-- MOD_START (R170). -/
def Obligations.ModStartBeginsTheTrain : Prop :=
  ∀ s : State, Live s →
    (s.mstate = .idle →
      exec .modStart s = .next { s with
        mcopy := false, mbit := 0, mstate := .hdrMark, carrierEn := true, cphase := 0
        mtimer := s.cfg.hdrMark, pending := if s.pending = some .modStart then none else s.pending
        trace := s.trace ++ [.tx s.frame, .pulse (mark s.cfg.hdrMark)] }) ∧
    (s.mstate ≠ .idle → exec .modStart s = .next { s with fault := some .illegalEvent }) ∧
    decodeEvent s.cstate .idle 0x1000000000#40 = .legal .modStart

/-- The ends of the header mark and the header space (R171, R172), with their keys. -/
def Obligations.HeaderPulsesFollow : Prop :=
  ∀ s : State, s.fault = none →
    (s.mstate = .hdrMark →
      exec .modHdrMarkEnd s = .next { s with
        mstate := .hdrSpace, carrierEn := false, mtimer := s.cfg.hdrSpace
        trace := s.trace ++ [.pulse (space s.cfg.hdrSpace)] }) ∧
    (s.mstate = .hdrSpace →
      exec .modHdrSpaceEnd s = .next { s with
        mstate := .bitMark, carrierEn := true, cphase := 0, mtimer := s.cfg.bitMark
        trace := s.trace ++ [.pulse (mark s.cfg.bitMark)] }) ∧
    decodeEvent s.cstate .hdrMark 0x1100000000#40 = .legal .modHdrMarkEnd ∧
    decodeEvent s.cstate .hdrSpace 0x1100000000#40 = .legal .modHdrSpaceEnd

/-- The end of a bit mark (R173): the space's length is the frame bit under MBIT, XOR MCOPY. The bit is bit
47 - MBIT of the frame written as one word, byte 0 highest (R53, R54). -/
def Obligations.BitMarkEndSendsTheBit : Prop :=
  ∀ s : State, s.fault = none → s.mstate = .bitMark →
    exec .modBitMarkEnd s = .next { s with
      mstate := .bitSpace, carrierEn := false
      mtimer := if ((frameWord s.frame).getLsbD (47 - s.mbit.val) ^^ s.mcopy) = true
        then s.cfg.oneSpace else s.cfg.zeroSpace
      trace := s.trace ++ [.pulse (space (if ((frameWord s.frame).getLsbD (47 - s.mbit.val) ^^ s.mcopy) = true
        then s.cfg.oneSpace else s.cfg.zeroSpace))] } ∧
    decodeEvent s.cstate .bitMark 0x1100000000#40 = .legal .modBitMarkEnd

/-- The end of a bit space (R174): the next bit below 47, the footer at 47. -/
def Obligations.BitSpaceEndAdvances : Prop :=
  ∀ s : State, s.fault = none → s.mstate = .bitSpace →
    (∀ h : s.mbit.val < 47,
      exec .modBitSpaceEnd s = .next { s with
        mbit := ⟨s.mbit.val + 1, Nat.succ_lt_succ h⟩, mstate := .bitMark, carrierEn := true, cphase := 0
        mtimer := s.cfg.bitMark, trace := s.trace ++ [.pulse (mark s.cfg.bitMark)] }) ∧
    (s.mbit.val = 47 →
      exec .modBitSpaceEnd s = .next { s with
        mstate := .ftrMark, carrierEn := true, cphase := 0
        mtimer := s.cfg.ftrMark, trace := s.trace ++ [.pulse (mark s.cfg.ftrMark)] }) ∧
    decodeEvent s.cstate .bitSpace 0x1100000000#40 = .legal .modBitSpaceEnd

/-- The end of the footer mark (R175). -/
def Obligations.FooterMarkEndSpaces : Prop :=
  ∀ s : State, s.fault = none → s.mstate = .ftrMark →
    exec .modFtrMarkEnd s = .next { s with
      mstate := .ftrSpace, carrierEn := false, mtimer := s.cfg.ftrSpace
      trace := s.trace ++ [.pulse (space s.cfg.ftrSpace)] } ∧
    decodeEvent s.cstate .ftrMark 0x1100000000#40 = .legal .modFtrMarkEnd

/-- The end of the footer space (R176): the inverted copy starts, or the modulator rests and TX_DONE is
posted. CARRIER_EN is 0 in M_FTR_SPACE (R30) and the second branch leaves it. -/
def Obligations.FooterSpaceEndRepeatsOrStops : Prop :=
  ∀ s : State, s.fault = none → s.mstate = .ftrSpace →
    (s.mcopy = false →
      exec .modFtrSpaceEnd s = .next { s with
        mcopy := true, mbit := 0, mstate := .hdrMark, carrierEn := true, cphase := 0
        mtimer := s.cfg.hdrMark, trace := s.trace ++ [.pulse (mark s.cfg.hdrMark)] }) ∧
    (s.mcopy = true →
      exec .modFtrSpaceEnd s = .next { s with
        mstate := .idle, mbit := 0, mcopy := false, pending := some .txDone }) ∧
    decodeEvent s.cstate .ftrSpace 0x1100000000#40 = .legal .modFtrSpaceEnd

/-! ### The datapath units -/

/-- REV8 (R131) and its laws (R132). -/
def Obligations.Rev8Reverses : Prop :=
  (∀ (s : State) (b : Byte), Live s → exec (.rev8 b) s = .next { s with unitOut := .byte (rev8 b) }) ∧
  (∀ (b : Byte) (i : Nat), i < 8 → (rev8 b).getLsbD (7 - i) = b.getLsbD i) ∧
  (∀ b : Byte, rev8 (rev8 b) = b ∧ rev8 (~~~b) = ~~~(rev8 b) ∧ (rev8 (~~~b)).toNat = 255 - (rev8 b).toNat) ∧
  ∃ a b : Byte, rev8 (a + b) ≠ rev8 a + rev8 b

/-- CHECKSUM as the closed form of R134: the bit reversal of the negated 8-bit sum of the reversed bytes. -/
def Obligations.ChecksumIsTheNegatedReversedSum : Prop :=
  ∀ (s : State) (b0 b1 b2 b3 b4 : Byte), Live s →
    exec (.checksum b0 b1 b2 b3 b4) s = .next { s with unitOut := .byte (rev8 (BitVec.ofNat 8 (
      256 - ((rev8 b0).toNat + (rev8 b1).toNat + (rev8 b2).toNat + (rev8 b3).toNat + (rev8 b4).toNat) % 256))) }

/-- VERIFY_FRAME (R138) and the validity law (R139): the reversed bytes of a valid frame sum to 0 modulo 256,
and no frame one bit away from a valid one is valid. -/
def Obligations.VerifyDetectsEverySingleBitError : Prop :=
  (∀ (s : State) (f : Frame), Live s → exec (.verifyFrame f) s = .next { s with
    unitOut := .flag (decide (checksum f.b0 f.b1 f.b2 f.b3 f.b4 = f.b5)) }) ∧
  (∀ f : Frame, verifyFrame f = true ↔
    ((rev8 f.b0).toNat + (rev8 f.b1).toNat + (rev8 f.b2).toNat + (rev8 f.b3).toNat + (rev8 f.b4).toNat
      + (rev8 f.b5).toNat) % 256 = 0) ∧
  ∀ (f g : Frame) (k : Nat), k < 48 → verifyFrame f = true →
    frameWord f ^^^ frameWord g = 1#48 <<< k → verifyFrame g = false

/-- The complement of a valid frame is never valid: its reversed bytes sum to 250 (R140). -/
def Obligations.InvertedCopyIsNeverValid : Prop :=
  ∀ f : Frame, verifyFrame f = true →
    ((rev8 (~~~f.b0)).toNat + (rev8 (~~~f.b1)).toNat + (rev8 (~~~f.b2)).toNat + (rev8 (~~~f.b3)).toNat
      + (rev8 (~~~f.b4)).toNat + (rev8 (~~~f.b5)).toNat) % 256 = 250 ∧
    verifyFrame (frameCompl f) = false

/-- BUILD_FRAME (R135, R136): inside the contract the constants, the follow-me byte and the checksum; outside
it ContractViolation and no frame. -/
def Obligations.BuildFrameKeepsItsContract : Prop :=
  ∀ (s : State) (t : Int), Live s →
    (s.cfg.tempMin ≤ t ∧ t ≤ s.cfg.tempMax →
      exec (.buildFrame t) s = .next { s with unitOut := .frame ⟨
          s.cfg.f0, s.cfg.f1, s.cfg.f2, s.cfg.f3, BitVec.ofInt 8 (t + 1),
          checksum s.cfg.f0 s.cfg.f1 s.cfg.f2 s.cfg.f3 (BitVec.ofInt 8 (t + 1))⟩ }) ∧
    (¬ (s.cfg.tempMin ≤ t ∧ t ≤ s.cfg.tempMax) →
      exec (.buildFrame t) s = .next { s with fault := some .contractViolation })

/-- The encoder's laws (R141, R75): byte 4 is t + 1 with bit 7 clear, byte 5 the checksum, every frame built
verifies, and different temperatures give different frames. -/
def Obligations.EncoderLaws : Prop :=
  ∀ p : Params, p.valid = true → ∀ t, p.tempMin ≤ t → t ≤ p.tempMax →
    ∃ f, buildFrame p t = some f ∧ (f.b4.toNat : Int) = t + 1 ∧ f.b4.getLsbD 7 = false ∧
      f.b5 = checksum f.b0 f.b1 f.b2 f.b3 f.b4 ∧ verifyFrame f = true ∧
      ∀ u, buildFrame p u = some f → u = t

/-- CLAMP_T (R137): a value in range stays, a value outside goes to the nearer bound. -/
def Obligations.ClampKeepsTheRange : Prop :=
  ∀ (s : State) (t : Int), Live s → s.cfg.valid = true →
    exec (.clampT t) s = .next { s with unitOut := .degrees (clampT s.cfg t) } ∧
    (t < s.cfg.tempMin → clampT s.cfg t = s.cfg.tempMin) ∧
    (s.cfg.tempMax < t → clampT s.cfg t = s.cfg.tempMax) ∧
    (s.cfg.tempMin ≤ t → t ≤ s.cfg.tempMax → clampT s.cfg t = t)

/-- TRUNC_C (R105): the quotient by 1000 rounded toward zero, by what characterises it, and its range. -/
def Obligations.TruncationIsTowardZero : Prop :=
  ∀ (s : State) (v : Word32), Live s →
    ∃ q : Int, exec (.truncC v) s = .next { s with unitOut := .degrees q } ∧
      |v.toInt - 1000 * q| < 1000 ∧ |1000 * q| ≤ |v.toInt| ∧
      (0 ≤ v.toInt → 0 ≤ q) ∧ (v.toInt ≤ 0 → q ≤ 0) ∧ -2147483 ≤ q ∧ q ≤ 2147483

/-- TRIGGER (R104): never reported, or a change of at least P_DELTA, or CYCLES at P_RATIO. -/
def Obligations.TriggerRule : Prop :=
  ∀ (s : State) (t : Int), Live s →
    exec (.trigger t) s = .next { s with unitOut := .flag (decide
      (s.reported = false ∨ (s.cfg.delta : Int) ≤ |t - s.lastC.toInt| ∨ s.cfg.ratio ≤ s.cycles)) }

/-- COPY (R165): header, the 48 bit symbols in on-air order, footer; the copy with polarity 1 is the copy of
the complemented bytes with polarity 0. -/
def Obligations.CopySendsTheBitsInOrder : Prop :=
  (∀ (s : State) (f : Frame) (c : Bool), Live s →
    exec (.copy f c) s = .next { s with unitOut := .pulses (
        [mark s.cfg.hdrMark, space s.cfg.hdrSpace] ++
        (List.range 48).flatMap (fun k => [mark s.cfg.bitMark,
          space (if ((frameWord f).getLsbD (47 - k) ^^ c) = true then s.cfg.oneSpace else s.cfg.zeroSpace)]) ++
        [mark s.cfg.ftrMark, space s.cfg.ftrSpace]) }) ∧
  ∀ (p : Params) (f : Frame), copyPulses p f true = copyPulses p (frameCompl f) false

/-- PULSE_TRAIN (R166) and the structure of the train (R167): 200 pulses, each given by its number. -/
def Obligations.PulseTrainStructure : Prop :=
  (∀ (s : State) (f : Frame), Live s → exec (.pulseTrain f) s = .next { s with
    unitOut := .pulses (copyPulses s.cfg f false ++ copyPulses s.cfg f true) }) ∧
  ∀ (p : Params) (f : Frame),
    (pulseTrain p f).length = 200 ∧
    (∀ (i : Nat) (q : Pulse), (pulseTrain p f)[i]? = some q → (q.kind = .mark ↔ i % 2 = 0)) ∧
    ∀ c : Bool,
      (pulseTrain p f)[100 * c.toNat]? = some (mark p.hdrMark) ∧
      (pulseTrain p f)[100 * c.toNat + 1]? = some (space p.hdrSpace) ∧
      (∀ k : Fin 48, (pulseTrain p f)[100 * c.toNat + 2 + 2 * k.val]? = some (mark p.bitMark) ∧
        (pulseTrain p f)[100 * c.toNat + 3 + 2 * k.val]? =
          some (space (if sentBit f c k = true then p.oneSpace else p.zeroSpace))) ∧
      (pulseTrain p f)[100 * c.toNat + 98]? = some (mark p.ftrMark) ∧
      (pulseTrain p f)[100 * c.toNat + 99]? = some (space p.ftrSpace)

/-- The duration law (R168), n the number of one-bits of the frame: each copy's length, and the whole train's,
the same for every frame. -/
def Obligations.TrainDuration : Prop :=
  ∀ (p : Params) (f : Frame) (n : Nat), n = (List.finRange 48).countP (fun k => frameBit f k) →
    trainUnits (copyPulses p f false) = p.hdrMark + p.hdrSpace + 48 * p.bitMark + p.ftrMark + p.ftrSpace
      + n * p.oneSpace + (48 - n) * p.zeroSpace ∧
    trainUnits (copyPulses p f true) = p.hdrMark + p.hdrSpace + 48 * p.bitMark + p.ftrMark + p.ftrSpace
      + (48 - n) * p.oneSpace + n * p.zeroSpace ∧
    trainUnits (pulseTrain p f) = 2 * (p.hdrMark + p.hdrSpace + 48 * p.bitMark + p.ftrMark + p.ftrSpace)
      + 48 * (p.oneSpace + p.zeroSpace)

/-- The inversion law (R169): a bit's space is long in copy 1 exactly when it is short in copy 0, and every
other pulse is the same in both copies. -/
def Obligations.SecondHalfIsInverted : Prop :=
  ∀ (p : Params) (f : Frame), p.zeroSpace < p.oneSpace →
    (∀ k : Fin 48, (pulseTrain p f)[100 + 3 + 2 * k.val]? = some (space p.oneSpace) ↔
      (pulseTrain p f)[3 + 2 * k.val]? = some (space p.zeroSpace)) ∧
    ∀ q : Nat, q < 100 → (q % 2 = 0 ∨ q = 1 ∨ q = 99) →
      (pulseTrain p f)[100 + q]? = (pulseTrain p f)[q]?

/-- CARRIER (R179, R36): EMIT_PIN is CARRIER_EN and the carrier's level at CPHASE. The level at τ
microseconds, by the whole number n of periods passed: with x = τ × P_CARRIER_HZ - 1000000 n in [0, 1000000),
it is high exactly while 100 x < 1000000 P_DUTY_PCT. -/
def Obligations.CarrierWaveform : Prop :=
  (∀ s : State, Live s → exec .carrier s = .next { s with
    unitOut := .flag (s.carrierEn && carrierHigh s.cfg s.cphase) }) ∧
  (∀ s : State, emitPin s = (s.carrierEn && carrierHigh s.cfg s.cphase)) ∧
  ∀ (p : Params) (tau : Rat) (n : Int),
    0 ≤ tau * p.carrierHz - 1000000 * n → tau * p.carrierHz - 1000000 * n < 1000000 →
    (carrierHigh p tau = true ↔ (tau * p.carrierHz - 1000000 * n) * 100 < p.dutyPct * 1000000)

/-- CPHASE is the time since the last rise of CARRIER_EN (R179, R35, R48): the steps that start a mark, and RESET,
set it to 0, no other instruction changes it, a unit of time adds P_U_US to it in marks and spaces alike, and
no step takes it back but to 0. That time passes by whole units is log entry 4; that it stays in ASLEEP
(R210) is in SleepTimerWakesTheBlock. -/
def Obligations.CarrierPhaseFollowsTime : Prop :=
  (∀ (i : Instr) (s t : State), exec i s = .next t → t.cphase ≠ s.cphase →
    t.cphase = 0 ∧ (i = .reset ∨
      (i ∈ [.modStart, .modHdrSpaceEnd, .modBitSpaceEnd, .modFtrSpaceEnd] ∧ t.carrierEn = true))) ∧
  (∀ s : State, s.cfg.valid = true → s.fault = none → s.pending = none → s.inbox = [] →
    s.mstate ≠ .idle → s.mstate ≠ .reserved → 1 ≤ s.mtimer →
    step s = .next { s with mtimer := s.mtimer - 1, cphase := s.cphase + (s.cfg.uUs : Rat) }) ∧
  ∀ s t : State, step s = .next t → t.cphase = 0 ∨ s.cphase ≤ t.cphase

/-- The four symbols (R161 to R164). -/
def Obligations.SymbolsAreMarkThenSpace : Prop :=
  ∀ s : State, Live s →
    exec .symHdr s = .next { s with unitOut := .pulses [mark s.cfg.hdrMark, space s.cfg.hdrSpace] } ∧
    exec .symBit0 s = .next { s with unitOut := .pulses [mark s.cfg.bitMark, space s.cfg.zeroSpace] } ∧
    exec .symBit1 s = .next { s with unitOut := .pulses [mark s.cfg.bitMark, space s.cfg.oneSpace] } ∧
    exec .symFtr s = .next { s with unitOut := .pulses [mark s.cfg.ftrMark, space s.cfg.ftrSpace] } ∧
    decode (.sym 0b00#2) = .legal .symHdr ∧ decode (.sym 0b01#2) = .legal .symBit0 ∧
    decode (.sym 0b10#2) = .legal .symBit1 ∧ decode (.sym 0b11#2) = .legal .symFtr

/-- The on-air bit order (R53, R54): frame bit k, bit 7 - k mod 8 of byte k div 8, is bit 47 - k of the frame
as one word with byte 0 in bits 47..40. -/
def Obligations.OnAirBitOrder : Prop :=
  (∀ f : Frame, (frameWord f).extractLsb' 40 8 = f.b0 ∧ (frameWord f).extractLsb' 32 8 = f.b1 ∧
    (frameWord f).extractLsb' 24 8 = f.b2 ∧ (frameWord f).extractLsb' 16 8 = f.b3 ∧
    (frameWord f).extractLsb' 8 8 = f.b4 ∧ (frameWord f).extractLsb' 0 8 = f.b5) ∧
  ∀ (f : Frame) (k : Fin 48), frameBit f k = (frameWord f).getLsbD (47 - k.val) ∧
    ∀ i : Fin 6, i.val = k.val / 8 → frameBit f k = (frameByte f i).getLsbD (7 - k.val % 8)

/-! ### The whole machine -/

/-- Every step keeps the core invariant, whatever the environment delivers: a legal MSTATE, CARRIER_EN its
carrier column, CYCLES and CYC_SNAP within P_CNT_W bits, CPHASE not negative (R30, R34, R24, R25, R35). -/
def Obligations.EveryStepKeepsCoreInv : Prop :=
  ∀ s t : State, CoreInv s → step s = .next t → CoreInv t

/-- The state after reset meets the core invariant, as does every state RESET gives. -/
def Obligations.ResetMeetsCoreInv : Prop :=
  CoreInv State.reset ∧ ∀ s t : State, exec .reset s = .next t → CoreInv t

/-- Under the environment's contract of R206 every step keeps the control FSM, the modulator and the timers in
step (R37, R38, R59, R61, R178, R207, R33). -/
def Obligations.EveryStepKeepsLoopInv : Prop :=
  ∀ s t : State, LoopInv s → EnvLawful s → step s = .next t → LoopInv t

/-- The state after reset meets the loop invariant, as does every state RESET gives. -/
def Obligations.ResetMeetsLoopInv : Prop :=
  LoopInv State.reset ∧ ∀ s t : State, exec .reset s = .next t → LoopInv t

/-- The FSM and the function agree (R177): MOD_START emits Tx(FRAME) and pulse 0, the i-th PULSE_END pulse i, and
the 200th rests the modulator and posts TX_DONE. The pulses are PULSE_TRAIN(FRAME), and FRAME stays. -/
def Obligations.ModulatorEmitsThePulseTrain : Prop :=
  ∀ s : State, s.fault = none → s.mstate = .idle →
    (∀ n, n ≤ 199 → ∃ t, takeWords (modStartWord :: List.replicate n pulseEndWord) s = .next t ∧
      t.mstate ≠ .idle ∧ t.fault = none ∧ t.frame = s.frame ∧ t.pending ≠ some .modStart ∧
      t.trace = s.trace ++ .tx s.frame :: ((pulseTrain s.cfg s.frame).take (n + 1)).map .pulse) ∧
    ∃ t, takeWords (modStartWord :: List.replicate 200 pulseEndWord) s = .next t ∧
      t.mstate = .idle ∧ t.pending = some .txDone ∧ t.carrierEn = false ∧ t.fault = none ∧
      t.frame = s.frame ∧ t.cstate = s.cstate ∧
      t.trace = s.trace ++ .tx s.frame :: (pulseTrain s.cfg s.frame).map .pulse

/-- A transmission runs by itself, with nothing arriving: in one step for MOD_START, one for each PULSE_END and
one for each unit of the train's length, the block emits the whole train and posts TX_DONE (R177, R211,
R181). CPHASE ends at the time since the last rise of CARRIER_EN, the length of the last footer (R179). The step
for each unit is log entry 4. -/
def Obligations.TransmissionRunsByItself : Prop :=
  ∀ s : State, s.cfg.valid = true → s.fault = none → s.mstate = .idle → s.pending = some .modStart →
    s.inbox = [] →
    runSteps (201 + trainUnits (pulseTrain s.cfg s.frame)) s = .next { s with
      pending := some .txDone, mcopy := false, mbit := 0, mtimer := 0, carrierEn := false
      cphase := ((s.cfg.uUs * (s.cfg.ftrMark + s.cfg.ftrSpace) : Nat) : Rat)
      trace := s.trace ++ .tx s.frame :: (pulseTrain s.cfg s.frame).map .pulse }

/-- Nothing the block does by itself faults: in a state that meets both invariants, with nothing arriving, a
step answers a next state without a fault (R202, R116, R206). -/
def Obligations.BlockNeverFaultsByItself : Prop :=
  ∀ s : State, s.cfg.valid = true → CoreInv s → LoopInv s → s.fault = none → s.inbox = [] →
    ∃ t, step s = .next t ∧ t.fault = none

/-- No step changes a parameter (R42, R236), and no step takes back an action of the trace. -/
def Obligations.StepKeepsParametersAndTrace : Prop :=
  ∀ s t : State, step s = .next t → t.cfg = s.cfg ∧ ∃ as, t.trace = s.trace ++ as

/-- FRAME does not change while its transmission runs (R59), nor through any instruction but TICK and RESET
(R28). -/
def Obligations.FrameIsFixedWhileTransmitting : Prop :=
  (∀ (i : Instr) (s t : State), i ≠ .tick → i ≠ .reset → exec i s = .next t → t.frame = s.frame) ∧
  ∀ s t : State, LoopInv s → s.cstate = .awakeTransmitting → due s ≠ .word resetWord → step s = .next t →
    t.frame = s.frame

/-- No cancellation (R178): while the modulator runs, no word but RESET and PULSE_END touches the train, and
each but TX_DONE leaves everything except FAULT as it was. -/
def Obligations.TransmissionCannotBeCancelled : Prop :=
  ∀ (s t : State) (w : EventWord), LoopInv s → s.mstate ≠ .idle → w ≠ resetWord → w ≠ pulseEndWord →
    takeWord w s = .next t →
    (t.mstate = s.mstate ∧ t.mcopy = s.mcopy ∧ t.mbit = s.mbit ∧ t.mtimer = s.mtimer ∧
      t.carrierEn = s.carrierEn ∧ t.cphase = s.cphase ∧ t.frame = s.frame) ∧
    (w ≠ txDoneWord → t = { s with fault := t.fault } ∧ t.fault ≠ none)

/-- A reset during a transmission stops the train at once (R233): the emitter goes low, the modulator rests, no
pulse is emitted and no TX_DONE is pending. -/
def Obligations.ResetCutsTheTrain : Prop :=
  ∀ s : State, s.mstate ≠ .idle → ∃ t, exec .reset s = .next t ∧
    t.carrierEn = false ∧ emitPin t = false ∧ t.mstate = .idle ∧ t.pending = none ∧
    t.trace = s.trace ++ [.sensorReq] ∧ t.reported = false ∧ t.lastC = 0#32 ∧ t.cycles = 0

/-- Who writes which register (R48, R20 to R39): for each, the only instructions that change it. -/
def Obligations.RegistersHaveTheirWriters : Prop :=
  ∀ (i : Instr) (s t : State), exec i s = .next t → i ≠ .reset →
    (i ≠ .txDone → t.reported = s.reported ∧ t.lastC = s.lastC) ∧
    (i ≠ .wake → i ≠ .senseFail → i ≠ .txDone → t.cycles = s.cycles) ∧
    (i ≠ .wake → t.cycSnap = s.cycSnap) ∧
    ((∀ v, i ≠ .senseOk v) → t.sampleMc = s.sampleMc) ∧
    (i ≠ .tick → t.frame = s.frame) ∧
    (i ∉ [.wake, .senseFail, .tick, .txDone] → (∀ v, i ≠ .senseOk v) → t.cstate = s.cstate) ∧
    (i ∉ [.wake, .senseFail] → (∀ v, i ≠ .senseOk v) → t.sreq = s.sreq) ∧
    (i ∉ [.wake, .senseFail, .tick, .txDone] →
      t.stimerArmed = s.stimerArmed ∧ t.stimerRem = s.stimerRem) ∧
    (i ∉ [.modStart, .modHdrMarkEnd, .modHdrSpaceEnd, .modBitMarkEnd, .modBitSpaceEnd, .modFtrMarkEnd,
        .modFtrSpaceEnd] →
      t.mstate = s.mstate ∧ t.mcopy = s.mcopy ∧ t.mbit = s.mbit ∧ t.mtimer = s.mtimer ∧
        t.carrierEn = s.carrierEn ∧ t.cphase = s.cphase) ∧
    (i ∈ [.modStart, .modHdrMarkEnd, .modHdrSpaceEnd, .modBitMarkEnd, .modBitSpaceEnd, .modFtrMarkEnd,
        .modFtrSpaceEnd] →
      t.cstate = s.cstate ∧ t.sampleMc = s.sampleMc ∧ t.cycles = s.cycles ∧ t.sreq = s.sreq)

/-- The sleep timer (R205): armed with a nonzero interval it counts its seconds down, every other register
surviving unchanged (R210), and then WAKE is taken; with P_WAKE_S = 0 the block stays asleep and nothing
changes. -/
def Obligations.SleepTimerWakesTheBlock : Prop :=
  ∀ s : State, s.cfg.valid = true → s.fault = none → s.mstate = .idle → s.cstate = .asleep →
    s.stimerArmed = true → s.pending = none → s.inbox = [] →
    (1 ≤ s.cfg.wakeS →
      (∀ k, k ≤ s.stimerRem → runSteps k s = .next { s with stimerRem := s.stimerRem - k }) ∧
      runSteps (s.stimerRem + 1) s = exec .wake { s with stimerRem := 0 }) ∧
    (s.cfg.wakeS = 0 → step s = .next s)

/-- First report (R110): with REPORTED = 0 any sample transmits, whatever its value. -/
def Obligations.FirstSampleTransmits : Prop :=
  ∀ (s : State) (v : Word32), Live s → s.cfg.valid = true → s.cstate = .awakeSampling → s.reported = false →
    ∃ t, takeWords [senseOkWord v, tickWord] s = .next t ∧ t.cstate = .awakeTransmitting ∧
      t.pending = some .modStart ∧ t.frame = makeFrame s.cfg (clampT s.cfg (truncC v)) ∧ t.fault = none

/-- Hysteresis (R111): with REPORTED = 1 and CYCLES below P_RATIO a sample transmits exactly when its whole
degrees differ from LAST_C by at least P_DELTA, so two samples of the same whole degrees decide alike. -/
def Obligations.HysteresisComparesWholeDegrees : Prop :=
  ∀ (s : State) (v : Word32), Live s → s.cfg.valid = true → s.cstate = .awakeSampling → s.reported = true →
    s.cycles < s.cfg.ratio →
    ∃ t, takeWords [senseOkWord v, tickWord] s = .next t ∧
      (t.cstate = .awakeTransmitting ↔
        (s.cfg.delta : Int) ≤ |Int.tdiv v.toInt 1000 - s.lastC.toInt|) ∧
      (t.cstate ≠ .awakeTransmitting → t.cstate = .asleep) ∧
      ∀ (u : Word32) (t' : State), Int.tdiv u.toInt 1000 = Int.tdiv v.toInt 1000 →
        takeWords [senseOkWord u, tickWord] s = .next t' → t'.cstate = t.cstate

/-- Cadence (R113): a cycle without a delta trigger counts, and transmits exactly when the count reaches
P_RATIO. -/
def Obligations.CadenceCountsToTheRatio : Prop :=
  ∀ (s : State) (v : Word32), Live s → s.cfg.valid = true → s.cstate = .asleep → s.reported = true →
    s.cycles + 1 < 2 ^ s.cfg.cntW → |Int.tdiv v.toInt 1000 - s.lastC.toInt| < (s.cfg.delta : Int) →
    ∃ t, takeWords [wakeWord, senseOkWord v, tickWord] s = .next t ∧ t.cycles = s.cycles + 1 ∧
      t.lastC = s.lastC ∧ t.reported = true ∧
      (s.cycles + 1 < s.cfg.ratio → t.cstate = .asleep ∧
        t.trace = s.trace ++ [.sensorReq, .sleep s.cfg.wakeS]) ∧
      (s.cfg.ratio ≤ s.cycles + 1 → t.cstate = .awakeTransmitting)

/-- Failure isolation (R114): a cycle whose sample fails changes no register of the decision state except by
the wake increment, and not even that with P_FAIL_UNDO_INC; it builds no frame and sends no pulse. -/
def Obligations.SensorFailureIsIsolated : Prop :=
  ∀ s : State, Live s → s.cstate = .asleep →
    ∃ t, takeWords [wakeWord, senseFailWord] s = .next t ∧ t.cstate = .asleep ∧
      t.reported = s.reported ∧ t.lastC = s.lastC ∧ t.cycSnap = s.cycles ∧
      t.cycles = (if s.cfg.failUndoInc = true then s.cycles else (s.cycles + 1) % 2 ^ s.cfg.cntW) ∧
      t.frame = s.frame ∧ t.sampleMc = s.sampleMc ∧ t.mstate = s.mstate ∧ t.fault = none ∧
      t.trace = s.trace ++ [.sensorReq, .sleep s.cfg.wakeS]

/-- A whole first report, from a sample to sleep (R110, R177, R107): the frame, its pulse train and the sleep
join the trace, and LAST_C reads as the unclamped whole degrees. -/
def Obligations.WholeReportCycle : Prop :=
  ∀ (s : State) (v : Word32), Live s → s.cfg.valid = true → s.cstate = .awakeSampling → s.mstate = .idle →
    s.reported = false →
    ∃ t, takeWords ([senseOkWord v, tickWord, modStartWord] ++ List.replicate 200 pulseEndWord ++ [txDoneWord]) s
        = .next t ∧
      t.cstate = .asleep ∧ t.mstate = .idle ∧ t.reported = true ∧ t.cycles = 0 ∧
      t.lastC.toInt = Int.tdiv v.toInt 1000 ∧ t.carrierEn = false ∧ t.fault = none ∧ t.pending = none ∧
      ∃ f, buildFrame s.cfg (clampT s.cfg (truncC v)) = some f ∧ verifyFrame f = true ∧ t.frame = f ∧
        t.trace = s.trace ++ (.tx f :: (pulseTrain s.cfg f).map .pulse ++ [.sleep s.cfg.wakeS])

/-- While no mark is sent the emitter is off (R34, R36, R30): in M_IDLE and in every space. -/
def Obligations.EmitterIsOffOutsideMarks : Prop :=
  ∀ s : State, CoreInv s → (s.mstate = .idle ∨ s.mstate = .hdrSpace ∨ s.mstate = .bitSpace ∨
    s.mstate = .ftrSpace) → s.carrierEn = false ∧ emitPin s = false
end

