-- ==== Sys2Proof/Laws/Decode.lean ====
section
/-! SUPPORT. What the decoder's parts do, said once: the fields of an event word, the key rows in terms of
state and event, the codes of the states, and the fields of a unit word. -/

namespace Sys2Proof

/-! ### Concatenation -/

theorem append_eq_iff {w v : Nat} {a c : BitVec w} {b d : BitVec v} :
    a ++ b = c ++ d ↔ a = c ∧ b = d := by
  constructor
  · intro h
    have ha := congrArg (BitVec.extractLsb' v w) h
    have hb := congrArg (BitVec.extractLsb' 0 v) h
    exact ⟨by simpa only [BitVec.extractLsb'_append_eq_left] using ha,
      by simpa only [BitVec.extractLsb'_append_eq_right] using hb⟩
  · rintro ⟨rfl, rfl⟩; rfl

theorem and_ones_append {w v : Nat} (a c : BitVec w) (b d : BitVec v) :
    ((a ++ b) &&& (BitVec.allOnes w ++ BitVec.allOnes v) = c ++ d) ↔ a = c ∧ b = d := by
  rw [BitVec.and_append, BitVec.and_allOnes, BitVec.and_allOnes, append_eq_iff]

theorem and_low_ones_append {w v : Nat} (a : BitVec w) (b d : BitVec v) :
    ((a ++ b) &&& (0#w ++ BitVec.allOnes v) = 0#w ++ d) ↔ b = d := by
  rw [BitVec.and_append, BitVec.and_allOnes, BitVec.and_zero, append_eq_iff]
  simp

theorem and_high_ones_append {w v : Nat} (a c : BitVec w) (b : BitVec v) :
    ((a ++ b) &&& (BitVec.allOnes w ++ 0#v) = c ++ 0#v) ↔ a = c := by
  rw [BitVec.and_append, BitVec.and_allOnes, BitVec.and_zero, append_eq_iff]
  simp

/-! ### Event words -/

@[simp] theorem evCode_eventWord (c : Byte) (p : Word32) : evCode (eventWord c p) = c :=
  BitVec.extractLsb'_append_eq_left

@[simp] theorem evPayload_eventWord (c : Byte) (p : Word32) : evPayload (eventWord c p) = p :=
  BitVec.extractLsb'_append_eq_right

@[simp] theorem eventWord_fields (w : EventWord) : eventWord (evCode w) (evPayload w) = w :=
  BitVec.extractLsb'_append_extractLsb' (w := 8) (len := 32) (x := w)

theorem eventWord_inj {c c' : Byte} {p p' : Word32} : eventWord c p = eventWord c' p' ↔ c = c' ∧ p = p' :=
  append_eq_iff

theorem resetWord_eq : resetWord = eventWord 0x01#8 0#32 := by decide
theorem wakeWord_eq : wakeWord = eventWord 0x02#8 0#32 := by decide
theorem senseFailWord_eq : senseFailWord = eventWord 0x04#8 0#32 := by decide
theorem tickWord_eq : tickWord = eventWord 0x05#8 0#32 := by decide
theorem txDoneWord_eq : txDoneWord = eventWord 0x06#8 0#32 := by decide
theorem modStartWord_eq : modStartWord = eventWord 0x10#8 0#32 := by decide
theorem pulseEndWord_eq : pulseEndWord = eventWord 0x11#8 0#32 := by decide

/-! ### State codes -/

@[simp] theorem CState.ofCode_code (s : CState) : CState.ofCode s.code = s := by cases s <;> rfl

@[simp] theorem CState.code_ofCode (c : BitVec 2) : (CState.ofCode c).code = c := by
  revert c; decide

@[simp] theorem MState.ofCode_code (s : MState) : MState.ofCode s.code = s := by cases s <;> rfl

@[simp] theorem MState.code_ofCode (c : BitVec 3) : (MState.ofCode c).code = c := by
  revert c; decide

/-! ### Keys -/

@[simp] theorem ctlKeyEvent_ctlKey (cs : CState) (ev : EventWord) : ctlKeyEvent (ctlKey cs ev) = ev :=
  BitVec.extractLsb'_append_eq_right

@[simp] theorem ctlKeyState_ctlKey (cs : CState) (ev : EventWord) : ctlKeyState (ctlKey cs ev) = cs := by
  have h : (ctlKey cs ev).extractLsb' 40 2 = cs.code := BitVec.extractLsb'_append_eq_left
  rw [ctlKeyState, h, CState.ofCode_code]

@[simp] theorem modKeyEvent_modKey (ms : MState) (ev : EventWord) : modKeyEvent (modKey ms ev) = ev :=
  BitVec.extractLsb'_append_eq_right

@[simp] theorem modKeyState_modKey (ms : MState) (ev : EventWord) : modKeyState (modKey ms ev) = ms := by
  have h : (modKey ms ev).extractLsb' 40 3 = ms.code := BitVec.extractLsb'_append_eq_left
  rw [modKeyState, h, MState.ofCode_code]

theorem ctlKey_any (cs : CState) (ev d : EventWord) :
    (ctlKey cs ev &&& 0x0FFFFFFFFFF#42 = 0#2 ++ d) ↔ ev = d :=
  and_low_ones_append cs.code ev d

theorem ctlKey_full (cs : CState) (ev d : EventWord) (c : BitVec 2) :
    (ctlKey cs ev &&& 0x3FFFFFFFFFF#42 = c ++ d) ↔ cs.code = c ∧ ev = d :=
  and_ones_append cs.code c ev d

theorem ctlKey_code (cs : CState) (ev : EventWord) :
    (ctlKey cs ev &&& 0x3FF00000000#42 = 0x00300000000#42) ↔ cs.code = 0#2 ∧ evCode ev = 0x03#8 := by
  have h : ctlKey cs ev = (cs.code ++ evCode ev) ++ evPayload ev := by
    conv_lhs => rw [← eventWord_fields ev]
    exact (BitVec.append_assoc' ..)
  have := and_high_ones_append (cs.code ++ evCode ev) (0#2 ++ 0x03#8) (evPayload ev)
  rw [append_eq_iff] at this
  rw [h]
  exact this

theorem modKey_any (ms : MState) (ev d : EventWord) :
    (modKey ms ev &&& 0x0FFFFFFFFFF#43 = 0#3 ++ d) ↔ ev = d :=
  and_low_ones_append ms.code ev d

theorem modKey_full (ms : MState) (ev d : EventWord) (c : BitVec 3) :
    (modKey ms ev &&& 0x7FFFFFFFFFF#43 = c ++ d) ↔ ms.code = c ∧ ev = d :=
  and_ones_append ms.code c ev d

theorem CState.code_inj {s t : CState} : s.code = t.code ↔ s = t := by
  cases s <;> cases t <;> decide

theorem MState.code_inj {s t : MState} : s.code = t.code ↔ s = t := by
  cases s <;> cases t <;> decide

/-- The control key rows in terms of state and event. -/
theorem ctlKeyInstr_ctlKey (cs : CState) (ev : EventWord) :
    ctlKeyInstr (ctlKey cs ev) =
      if ev = resetWord then some .reset
      else if cs = .asleep ∧ ev = wakeWord then some .wake
      else if cs = .awakeSampling ∧ evCode ev = 0x03#8 then some (.senseOk (evPayload ev))
      else if cs = .awakeSampling ∧ ev = senseFailWord then some .senseFail
      else if cs = .awakeDeciding ∧ ev = tickWord then some .tick
      else if cs = .awakeTransmitting ∧ ev = txDoneWord then some .txDone
      else none := by
  have h1 := ctlKey_any cs ev resetWord
  have h2 := ctlKey_full cs ev wakeWord (CState.code .asleep)
  have h3 := ctlKey_code cs ev
  have h4 := ctlKey_full cs ev senseFailWord (CState.code .awakeSampling)
  have h5 := ctlKey_full cs ev tickWord (CState.code .awakeDeciding)
  have h6 := ctlKey_full cs ev txDoneWord (CState.code .awakeTransmitting)
  rw [CState.code_inj] at h2 h4 h5 h6
  rw [show (0#2 : BitVec 2) = CState.code .awakeSampling from rfl, CState.code_inj] at h3
  have h7 : (ctlKey cs ev).extractLsb' 0 32 = evPayload ev := by
    simp only [ctlKey, evPayload]
    rw [BitVec.extractLsb'_append_eq_ite]
    simp
  unfold ctlKeyInstr
  rw [h7]
  simp only [show (0x00100000000#42) = 0#2 ++ resetWord from rfl, h1,
    show (0x30200000000#42) = CState.code .asleep ++ wakeWord from rfl, h2, h3,
    show (0x00400000000#42) = CState.code .awakeSampling ++ senseFailWord from rfl, h4,
    show (0x10500000000#42) = CState.code .awakeDeciding ++ tickWord from rfl, h5,
    show (0x20600000000#42) = CState.code .awakeTransmitting ++ txDoneWord from rfl, h6]

/-- The modulator key rows in terms of state and event. -/
theorem modKeyInstr_modKey (ms : MState) (ev : EventWord) :
    modKeyInstr (modKey ms ev) =
      if ev = resetWord then some .reset
      else if ms = .idle ∧ ev = modStartWord then some .modStart
      else if ms = .hdrMark ∧ ev = pulseEndWord then some .modHdrMarkEnd
      else if ms = .hdrSpace ∧ ev = pulseEndWord then some .modHdrSpaceEnd
      else if ms = .bitMark ∧ ev = pulseEndWord then some .modBitMarkEnd
      else if ms = .bitSpace ∧ ev = pulseEndWord then some .modBitSpaceEnd
      else if ms = .ftrMark ∧ ev = pulseEndWord then some .modFtrMarkEnd
      else if ms = .ftrSpace ∧ ev = pulseEndWord then some .modFtrSpaceEnd
      else none := by
  have h0 := modKey_any ms ev resetWord
  have h1 := modKey_full ms ev modStartWord (MState.code .idle)
  have h2 := modKey_full ms ev pulseEndWord (MState.code .hdrMark)
  have h3 := modKey_full ms ev pulseEndWord (MState.code .hdrSpace)
  have h4 := modKey_full ms ev pulseEndWord (MState.code .bitMark)
  have h5 := modKey_full ms ev pulseEndWord (MState.code .bitSpace)
  have h6 := modKey_full ms ev pulseEndWord (MState.code .ftrMark)
  have h7 := modKey_full ms ev pulseEndWord (MState.code .ftrSpace)
  rw [MState.code_inj] at h1 h2 h3 h4 h5 h6 h7
  unfold modKeyInstr
  simp only [show (0x00100000000#43) = 0#3 ++ resetWord from rfl, h0,
    show (0x01000000000#43) = MState.code .idle ++ modStartWord from rfl, h1,
    show (0x11100000000#43) = MState.code .hdrMark ++ pulseEndWord from rfl, h2,
    show (0x21100000000#43) = MState.code .hdrSpace ++ pulseEndWord from rfl, h3,
    show (0x31100000000#43) = MState.code .bitMark ++ pulseEndWord from rfl, h4,
    show (0x41100000000#43) = MState.code .bitSpace ++ pulseEndWord from rfl, h5,
    show (0x51100000000#43) = MState.code .ftrMark ++ pulseEndWord from rfl, h6,
    show (0x61100000000#43) = MState.code .ftrSpace ++ pulseEndWord from rfl, h7]

/-! ### Unit words -/

@[simp] theorem unitOps_unitWord (sel : BitVec 4) (ops : BitVec 56) : unitOps (unitWord sel ops) = ops :=
  BitVec.extractLsb'_append_eq_left

@[simp] theorem unitSel_unitWord (sel : BitVec 4) (ops : BitVec 56) : unitSel (unitWord sel ops) = sel := by
  have h : unitSel (unitWord sel ops) = ((0#4 : BitVec 4) ++ sel).extractLsb' 0 4 := by
    unfold unitSel unitWord
    rw [BitVec.extractLsb'_append_eq_ite]
    simp
  rw [h]
  exact BitVec.extractLsb'_append_eq_right

@[simp] theorem unitGap_unitWord (sel : BitVec 4) (ops : BitVec 56) :
    (unitWord sel ops).extractLsb' 4 4 = 0#4 := by
  have h : (unitWord sel ops).extractLsb' 4 4 = ((0#4 : BitVec 4) ++ sel).extractLsb' 4 4 := by
    unfold unitWord
    rw [BitVec.extractLsb'_append_eq_ite]
    simp
  rw [h]
  exact BitVec.extractLsb'_append_eq_left

/-- A narrow operand leaves the bits above it zero. -/
theorem opsBelow_setWidth {n : Nat} (x : BitVec n) (h : n ≤ 56) : opsBelow (x.setWidth 56) n = true := by
  have hx := x.isLt
  have hp : 2 ^ n ≤ 2 ^ 56 := Nat.pow_le_pow_right (by decide) h
  simp only [opsBelow, decide_eq_true_eq, BitVec.toNat_setWidth]
  rw [Nat.mod_eq_of_lt (by omega)]
  exact hx

/-- A field below the operand's width reads the operand. -/
theorem extractLsb'_setWidth {n : Nat} (x : BitVec n) (i len : Nat) (h : i + len ≤ n) (hn : n ≤ 56) :
    (x.setWidth 56).extractLsb' i len = x.extractLsb' i len := by
  ext j hj
  simp only [BitVec.getElem_extractLsb', BitVec.getLsbD_setWidth]
  simp; omega

/-- A field above the lower part of a concatenation reads the upper part. -/
theorem extract_upper {w v : Nat} (a : BitVec w) (b : BitVec v) (i len : Nat) (h : v ≤ i) :
    (a ++ b).extractLsb' i len = a.extractLsb' (i - v) len := by
  rw [BitVec.extractLsb'_append_eq_ite, dif_neg (by omega)]

/-- A field within the lower part of a concatenation reads the lower part. -/
theorem extract_lower {w v : Nat} (a : BitVec w) (b : BitVec v) (i len : Nat) (h : i + len ≤ v) (hl : 0 < len) :
    (a ++ b).extractLsb' i len = b.extractLsb' i len := by
  rw [BitVec.extractLsb'_append_eq_ite, dif_pos (by omega), dif_pos h]

/-- The bytes of a packed frame, byte 0 lowest. -/
theorem packFrame_bytes (f : Frame) :
    (packFrame f).extractLsb' 0 8 = f.b0 ∧ (packFrame f).extractLsb' 8 8 = f.b1 ∧
      (packFrame f).extractLsb' 16 8 = f.b2 ∧ (packFrame f).extractLsb' 24 8 = f.b3 ∧
      (packFrame f).extractLsb' 32 8 = f.b4 ∧ (packFrame f).extractLsb' 40 8 = f.b5 := by
  have top : ∀ x : Byte, x.extractLsb' 0 8 = x := fun x => by
    ext i; simp
  refine ⟨?_, ?_, ?_, ?_, ?_, ?_⟩
  · exact (extract_lower f.b5 _ 0 8 (by decide) (by decide)).trans
      ((extract_lower f.b4 _ 0 8 (by decide) (by decide)).trans
        ((extract_lower f.b3 _ 0 8 (by decide) (by decide)).trans
          ((extract_lower f.b2 _ 0 8 (by decide) (by decide)).trans
            ((extract_lower f.b1 f.b0 0 8 (by decide) (by decide)).trans (top _)))))
  · exact (extract_lower f.b5 _ 8 8 (by decide) (by decide)).trans
      ((extract_lower f.b4 _ 8 8 (by decide) (by decide)).trans
        ((extract_lower f.b3 _ 8 8 (by decide) (by decide)).trans
          ((extract_lower f.b2 _ 8 8 (by decide) (by decide)).trans
            ((extract_upper f.b1 f.b0 8 8 (by decide)).trans (top _)))))
  · exact (extract_lower f.b5 _ 16 8 (by decide) (by decide)).trans
      ((extract_lower f.b4 _ 16 8 (by decide) (by decide)).trans
        ((extract_lower f.b3 _ 16 8 (by decide) (by decide)).trans
          ((extract_upper f.b2 (f.b1 ++ f.b0) 16 8 (by decide)).trans (top _))))
  · exact (extract_lower f.b5 _ 24 8 (by decide) (by decide)).trans
      ((extract_lower f.b4 _ 24 8 (by decide) (by decide)).trans
        ((extract_upper f.b3 (f.b2 ++ (f.b1 ++ f.b0)) 24 8 (by decide)).trans (top _)))
  · exact (extract_lower f.b5 _ 32 8 (by decide) (by decide)).trans
      ((extract_upper f.b4 (f.b3 ++ (f.b2 ++ (f.b1 ++ f.b0))) 32 8 (by decide)).trans (top _))
  · exact (extract_upper f.b5 (f.b4 ++ (f.b3 ++ (f.b2 ++ (f.b1 ++ f.b0)))) 40 8 (by decide)).trans (top _)

/-- A packed frame, alone or below a polarity bit, unpacks to itself. -/
theorem opFrame_packFrame (f : Frame) : opFrame ((packFrame f).setWidth 56) = f := by
  obtain ⟨h0, h1, h2, h3, h4, h5⟩ := packFrame_bytes f
  simp only [opFrame, opByte]
  rw [extractLsb'_setWidth _ _ _ (by decide) (by decide), extractLsb'_setWidth _ _ _ (by decide) (by decide),
    extractLsb'_setWidth _ _ _ (by decide) (by decide), extractLsb'_setWidth _ _ _ (by decide) (by decide),
    extractLsb'_setWidth _ _ _ (by decide) (by decide), extractLsb'_setWidth _ _ _ (by decide) (by decide)]
  simp only [Nat.mul_zero, Nat.mul_one, Nat.reduceMul, h0, h1, h2, h3, h4, h5]

/-! ### What an event word can decode to -/

/-- The state and the word in which the instruction is taken (R71, R83, R84); no event word is a unit or a
symbol (R89). -/
def TakenOn (cs : CState) (ms : MState) (w : EventWord) : Instr → Prop
  | .reset => w = resetWord
  | .wake => ms ≠ .reserved ∧ cs = .asleep ∧ w = wakeWord
  | .senseOk v => ms ≠ .reserved ∧ cs = .awakeSampling ∧ w = senseOkWord v
  | .senseFail => ms ≠ .reserved ∧ cs = .awakeSampling ∧ w = senseFailWord
  | .tick => ms ≠ .reserved ∧ cs = .awakeDeciding ∧ w = tickWord
  | .txDone => ms ≠ .reserved ∧ cs = .awakeTransmitting ∧ w = txDoneWord
  | .modStart => ms = .idle ∧ w = modStartWord
  | .modHdrMarkEnd => ms = .hdrMark ∧ w = pulseEndWord
  | .modHdrSpaceEnd => ms = .hdrSpace ∧ w = pulseEndWord
  | .modBitMarkEnd => ms = .bitMark ∧ w = pulseEndWord
  | .modBitSpaceEnd => ms = .bitSpace ∧ w = pulseEndWord
  | .modFtrMarkEnd => ms = .ftrMark ∧ w = pulseEndWord
  | .modFtrSpaceEnd => ms = .ftrSpace ∧ w = pulseEndWord
  | .rev8 _ | .checksum _ _ _ _ _ | .buildFrame _ | .verifyFrame _ | .clampT _ | .truncC _ => False
  | .trigger _ | .copy _ _ | .pulseTrain _ | .carrier => False
  | .symHdr | .symBit0 | .symBit1 | .symFtr => False

theorem verdictOfRow_legal {o : Option Instr} {i : Instr} (h : verdictOfRow o = .legal i) : o = some i := by
  cases o with
  | none => exact Verdict.noConfusion h
  | some j => exact congrArg some (Verdict.legal.inj h)

theorem ctlKeyInstr_taken {cs : CState} {ms : MState} {w : EventWord} {i : Instr} (hm : ms ≠ .reserved)
    (h : ctlKeyInstr (ctlKey cs w) = some i) : TakenOn cs ms w i := by
  rw [ctlKeyInstr_ctlKey] at h
  split at h
  · cases h; assumption
  split at h
  · cases h; exact ⟨hm, by assumption⟩
  split at h
  case isTrue hc =>
    cases h
    refine ⟨hm, hc.1, ?_⟩
    rw [senseOkWord, ← hc.2, eventWord_fields]
  iterate 3
    split at h
    · cases h; exact ⟨hm, by assumption⟩
  cases h

theorem modKeyInstr_taken {cs : CState} {ms : MState} {w : EventWord} {i : Instr}
    (h : modKeyInstr (modKey ms w) = some i) : TakenOn cs ms w i := by
  rw [modKeyInstr_modKey] at h
  iterate 8
    split at h
    · cases h; assumption
  cases h

/-- What a legal verdict on an event word says of the state and the word. -/
theorem decodeEvent_legal {cs : CState} {ms : MState} {w : EventWord} {i : Instr}
    (h : decodeEvent cs ms w = .legal i) : TakenOn cs ms w i := by
  unfold decodeEvent at h
  split at h
  · cases h
  split at h
  · cases h
  case isFalse hm =>
    split at h
    · exact modKeyInstr_taken (verdictOfRow_legal h)
    · have hc := verdictOfRow_legal h
      by_cases hr : ms = .reserved
      · have hw : w = resetWord := by
          by_contra hne
          exact hm ⟨hr, hne⟩
        subst hw
        rw [ctlKeyInstr_ctlKey, if_pos rfl] at hc
        cases hc
        rfl
      · exact ctlKeyInstr_taken hr hc

/-- An event word is never a unit word. -/
theorem decodeEvent_ne_unassigned (cs : CState) (ms : MState) (w : EventWord) :
    decodeEvent cs ms w ≠ .unassignedUnit := by
  have hv : ∀ o, verdictOfRow o ≠ .unassignedUnit := by
    intro o; cases o <;> exact Verdict.noConfusion
  unfold decodeEvent
  split
  · exact Verdict.noConfusion
  split
  · exact Verdict.noConfusion
  split <;> exact hv _

/-- The event words of R71 decode to their instruction wherever it is taken. -/
theorem decodeEvent_of_taken {cs : CState} {ms : MState} {w : EventWord} {i : Instr} (h : TakenOn cs ms w i) :
    decodeEvent cs ms w = .legal i := by
  cases i <;> simp only [TakenOn] at h
  case reset =>
    subst h
    cases ms <;> cases cs <;> decide
  case senseOk v =>
    obtain ⟨hm, rfl, rfl⟩ := h
    have h1 : isReservedWord (senseOkWord v) = false := by
      simp [isReservedWord, senseOkWord, isCtlCode]
    have h2 : isModCode (evCode (senseOkWord v)) = false := by simp [senseOkWord, isModCode]
    unfold decodeEvent
    rw [if_neg (by simp [h1]), if_neg (by simp [hm]), if_neg (by simp [h2]), ctlKeyInstr_ctlKey]
    simp [senseOkWord, resetWord_eq, eventWord_inj, verdictOfRow]
  case modStart =>
    obtain ⟨rfl, rfl⟩ := h
    cases cs <;> decide
  all_goals
    first
    | (obtain ⟨hm, rfl, rfl⟩ := h; cases ms <;> first | decide | contradiction)
    | (obtain ⟨rfl, rfl⟩ := h; cases cs <;> decide)

end Sys2Proof
end

