-- ==== Sys2Proof/Laws/State.lean ====
section
/-! SUPPORT. What each shared update of the state does to each field, one lemma per field, so that no proof
unfolds a record update. -/

namespace Sys2Proof.Machine

/-! ### `raise` -/

@[simp] theorem raise_cfg (r : Fault) (s : State) : (raise r s).cfg = s.cfg := rfl
@[simp] theorem raise_cstate (r : Fault) (s : State) : (raise r s).cstate = s.cstate := rfl
@[simp] theorem raise_reported (r : Fault) (s : State) : (raise r s).reported = s.reported := rfl
@[simp] theorem raise_lastC (r : Fault) (s : State) : (raise r s).lastC = s.lastC := rfl
@[simp] theorem raise_cycles (r : Fault) (s : State) : (raise r s).cycles = s.cycles := rfl
@[simp] theorem raise_cycSnap (r : Fault) (s : State) : (raise r s).cycSnap = s.cycSnap := rfl
@[simp] theorem raise_sampleMc (r : Fault) (s : State) : (raise r s).sampleMc = s.sampleMc := rfl
@[simp] theorem raise_frame (r : Fault) (s : State) : (raise r s).frame = s.frame := rfl
@[simp] theorem raise_mstate (r : Fault) (s : State) : (raise r s).mstate = s.mstate := rfl
@[simp] theorem raise_mcopy (r : Fault) (s : State) : (raise r s).mcopy = s.mcopy := rfl
@[simp] theorem raise_mbit (r : Fault) (s : State) : (raise r s).mbit = s.mbit := rfl
@[simp] theorem raise_mtimer (r : Fault) (s : State) : (raise r s).mtimer = s.mtimer := rfl
@[simp] theorem raise_carrierEn (r : Fault) (s : State) : (raise r s).carrierEn = s.carrierEn := rfl
@[simp] theorem raise_cphase (r : Fault) (s : State) : (raise r s).cphase = s.cphase := rfl
@[simp] theorem raise_stimerArmed (r : Fault) (s : State) : (raise r s).stimerArmed = s.stimerArmed := rfl
@[simp] theorem raise_stimerRem (r : Fault) (s : State) : (raise r s).stimerRem = s.stimerRem := rfl
@[simp] theorem raise_sreq (r : Fault) (s : State) : (raise r s).sreq = s.sreq := rfl
@[simp] theorem raise_fault (r : Fault) (s : State) : (raise r s).fault = some (s.fault.getD r) := rfl
@[simp] theorem raise_pending (r : Fault) (s : State) : (raise r s).pending = s.pending := rfl
@[simp] theorem raise_inbox (r : Fault) (s : State) : (raise r s).inbox = s.inbox := rfl
@[simp] theorem raise_trace (r : Fault) (s : State) : (raise r s).trace = s.trace := rfl
@[simp] theorem raise_unitOut (r : Fault) (s : State) : (raise r s).unitOut = s.unitOut := rfl
@[simp] theorem raise_resets (r : Fault) (s : State) : (raise r s).resets = s.resets := rfl
@[simp] theorem raise_waits (r : Fault) (s : State) : (raise r s).waits = s.waits := rfl
theorem raise_of_none (r : Fault) (s : State) (h : s.fault = none) :
    raise r s = { s with fault := some r } := by simp [raise, h]
theorem raise_of_fault (r q : Fault) (s : State) (h : s.fault = some q) : raise r s = s := by
  cases s; simp_all [raise]

/-! ### `emit` -/

@[simp] theorem emit_cfg (a : Action) (s : State) : (emit a s).cfg = s.cfg := rfl
@[simp] theorem emit_cstate (a : Action) (s : State) : (emit a s).cstate = s.cstate := rfl
@[simp] theorem emit_reported (a : Action) (s : State) : (emit a s).reported = s.reported := rfl
@[simp] theorem emit_lastC (a : Action) (s : State) : (emit a s).lastC = s.lastC := rfl
@[simp] theorem emit_cycles (a : Action) (s : State) : (emit a s).cycles = s.cycles := rfl
@[simp] theorem emit_cycSnap (a : Action) (s : State) : (emit a s).cycSnap = s.cycSnap := rfl
@[simp] theorem emit_sampleMc (a : Action) (s : State) : (emit a s).sampleMc = s.sampleMc := rfl
@[simp] theorem emit_frame (a : Action) (s : State) : (emit a s).frame = s.frame := rfl
@[simp] theorem emit_mstate (a : Action) (s : State) : (emit a s).mstate = s.mstate := rfl
@[simp] theorem emit_mcopy (a : Action) (s : State) : (emit a s).mcopy = s.mcopy := rfl
@[simp] theorem emit_mbit (a : Action) (s : State) : (emit a s).mbit = s.mbit := rfl
@[simp] theorem emit_mtimer (a : Action) (s : State) : (emit a s).mtimer = s.mtimer := rfl
@[simp] theorem emit_carrierEn (a : Action) (s : State) : (emit a s).carrierEn = s.carrierEn := rfl
@[simp] theorem emit_cphase (a : Action) (s : State) : (emit a s).cphase = s.cphase := rfl
@[simp] theorem emit_stimerArmed (a : Action) (s : State) : (emit a s).stimerArmed = s.stimerArmed := rfl
@[simp] theorem emit_stimerRem (a : Action) (s : State) : (emit a s).stimerRem = s.stimerRem := rfl
@[simp] theorem emit_sreq (a : Action) (s : State) : (emit a s).sreq = s.sreq := rfl
@[simp] theorem emit_fault (a : Action) (s : State) : (emit a s).fault = s.fault := rfl
@[simp] theorem emit_pending (a : Action) (s : State) : (emit a s).pending = s.pending := rfl
@[simp] theorem emit_inbox (a : Action) (s : State) : (emit a s).inbox = s.inbox := rfl
@[simp] theorem emit_trace (a : Action) (s : State) : (emit a s).trace = s.trace ++ [a] := rfl
@[simp] theorem emit_unitOut (a : Action) (s : State) : (emit a s).unitOut = s.unitOut := rfl
@[simp] theorem emit_resets (a : Action) (s : State) : (emit a s).resets = s.resets := rfl
@[simp] theorem emit_waits (a : Action) (s : State) : (emit a s).waits = s.waits := rfl

/-! ### `takePosted` -/

@[simp] theorem takePosted_cfg (p : Posted) (s : State) : (takePosted p s).cfg = s.cfg := rfl
@[simp] theorem takePosted_cstate (p : Posted) (s : State) : (takePosted p s).cstate = s.cstate := rfl
@[simp] theorem takePosted_reported (p : Posted) (s : State) : (takePosted p s).reported = s.reported := rfl
@[simp] theorem takePosted_lastC (p : Posted) (s : State) : (takePosted p s).lastC = s.lastC := rfl
@[simp] theorem takePosted_cycles (p : Posted) (s : State) : (takePosted p s).cycles = s.cycles := rfl
@[simp] theorem takePosted_cycSnap (p : Posted) (s : State) : (takePosted p s).cycSnap = s.cycSnap := rfl
@[simp] theorem takePosted_sampleMc (p : Posted) (s : State) : (takePosted p s).sampleMc = s.sampleMc := rfl
@[simp] theorem takePosted_frame (p : Posted) (s : State) : (takePosted p s).frame = s.frame := rfl
@[simp] theorem takePosted_mstate (p : Posted) (s : State) : (takePosted p s).mstate = s.mstate := rfl
@[simp] theorem takePosted_mcopy (p : Posted) (s : State) : (takePosted p s).mcopy = s.mcopy := rfl
@[simp] theorem takePosted_mbit (p : Posted) (s : State) : (takePosted p s).mbit = s.mbit := rfl
@[simp] theorem takePosted_mtimer (p : Posted) (s : State) : (takePosted p s).mtimer = s.mtimer := rfl
@[simp] theorem takePosted_carrierEn (p : Posted) (s : State) : (takePosted p s).carrierEn = s.carrierEn := rfl
@[simp] theorem takePosted_cphase (p : Posted) (s : State) : (takePosted p s).cphase = s.cphase := rfl
@[simp] theorem takePosted_stimerArmed (p : Posted) (s : State) : (takePosted p s).stimerArmed = s.stimerArmed := rfl
@[simp] theorem takePosted_stimerRem (p : Posted) (s : State) : (takePosted p s).stimerRem = s.stimerRem := rfl
@[simp] theorem takePosted_sreq (p : Posted) (s : State) : (takePosted p s).sreq = s.sreq := rfl
@[simp] theorem takePosted_fault (p : Posted) (s : State) : (takePosted p s).fault = s.fault := rfl
@[simp] theorem takePosted_pending (p : Posted) (s : State) : (takePosted p s).pending = if s.pending = some p then none else s.pending := rfl
@[simp] theorem takePosted_inbox (p : Posted) (s : State) : (takePosted p s).inbox = s.inbox := rfl
@[simp] theorem takePosted_trace (p : Posted) (s : State) : (takePosted p s).trace = s.trace := rfl
@[simp] theorem takePosted_unitOut (p : Posted) (s : State) : (takePosted p s).unitOut = s.unitOut := rfl
@[simp] theorem takePosted_resets (p : Posted) (s : State) : (takePosted p s).resets = s.resets := rfl
@[simp] theorem takePosted_waits (p : Posted) (s : State) : (takePosted p s).waits = s.waits := rfl

/-! ### `post` -/

@[simp] theorem post_cfg (p : Posted) (s : State) : (post p s).cfg = s.cfg := rfl
@[simp] theorem post_cstate (p : Posted) (s : State) : (post p s).cstate = s.cstate := rfl
@[simp] theorem post_reported (p : Posted) (s : State) : (post p s).reported = s.reported := rfl
@[simp] theorem post_lastC (p : Posted) (s : State) : (post p s).lastC = s.lastC := rfl
@[simp] theorem post_cycles (p : Posted) (s : State) : (post p s).cycles = s.cycles := rfl
@[simp] theorem post_cycSnap (p : Posted) (s : State) : (post p s).cycSnap = s.cycSnap := rfl
@[simp] theorem post_sampleMc (p : Posted) (s : State) : (post p s).sampleMc = s.sampleMc := rfl
@[simp] theorem post_frame (p : Posted) (s : State) : (post p s).frame = s.frame := rfl
@[simp] theorem post_mstate (p : Posted) (s : State) : (post p s).mstate = s.mstate := rfl
@[simp] theorem post_mcopy (p : Posted) (s : State) : (post p s).mcopy = s.mcopy := rfl
@[simp] theorem post_mbit (p : Posted) (s : State) : (post p s).mbit = s.mbit := rfl
@[simp] theorem post_mtimer (p : Posted) (s : State) : (post p s).mtimer = s.mtimer := rfl
@[simp] theorem post_carrierEn (p : Posted) (s : State) : (post p s).carrierEn = s.carrierEn := rfl
@[simp] theorem post_cphase (p : Posted) (s : State) : (post p s).cphase = s.cphase := rfl
@[simp] theorem post_stimerArmed (p : Posted) (s : State) : (post p s).stimerArmed = s.stimerArmed := rfl
@[simp] theorem post_stimerRem (p : Posted) (s : State) : (post p s).stimerRem = s.stimerRem := rfl
@[simp] theorem post_sreq (p : Posted) (s : State) : (post p s).sreq = s.sreq := rfl
@[simp] theorem post_fault (p : Posted) (s : State) : (post p s).fault = s.fault := rfl
@[simp] theorem post_pending (p : Posted) (s : State) : (post p s).pending = some p := rfl
@[simp] theorem post_inbox (p : Posted) (s : State) : (post p s).inbox = s.inbox := rfl
@[simp] theorem post_trace (p : Posted) (s : State) : (post p s).trace = s.trace := rfl
@[simp] theorem post_unitOut (p : Posted) (s : State) : (post p s).unitOut = s.unitOut := rfl
@[simp] theorem post_resets (p : Posted) (s : State) : (post p s).resets = s.resets := rfl
@[simp] theorem post_waits (p : Posted) (s : State) : (post p s).waits = s.waits := rfl

/-! ### `outputUnit` -/

@[simp] theorem outputUnit_cfg (o : UnitOut) (s : State) : (outputUnit o s).cfg = s.cfg := rfl
@[simp] theorem outputUnit_cstate (o : UnitOut) (s : State) : (outputUnit o s).cstate = s.cstate := rfl
@[simp] theorem outputUnit_reported (o : UnitOut) (s : State) : (outputUnit o s).reported = s.reported := rfl
@[simp] theorem outputUnit_lastC (o : UnitOut) (s : State) : (outputUnit o s).lastC = s.lastC := rfl
@[simp] theorem outputUnit_cycles (o : UnitOut) (s : State) : (outputUnit o s).cycles = s.cycles := rfl
@[simp] theorem outputUnit_cycSnap (o : UnitOut) (s : State) : (outputUnit o s).cycSnap = s.cycSnap := rfl
@[simp] theorem outputUnit_sampleMc (o : UnitOut) (s : State) : (outputUnit o s).sampleMc = s.sampleMc := rfl
@[simp] theorem outputUnit_frame (o : UnitOut) (s : State) : (outputUnit o s).frame = s.frame := rfl
@[simp] theorem outputUnit_mstate (o : UnitOut) (s : State) : (outputUnit o s).mstate = s.mstate := rfl
@[simp] theorem outputUnit_mcopy (o : UnitOut) (s : State) : (outputUnit o s).mcopy = s.mcopy := rfl
@[simp] theorem outputUnit_mbit (o : UnitOut) (s : State) : (outputUnit o s).mbit = s.mbit := rfl
@[simp] theorem outputUnit_mtimer (o : UnitOut) (s : State) : (outputUnit o s).mtimer = s.mtimer := rfl
@[simp] theorem outputUnit_carrierEn (o : UnitOut) (s : State) : (outputUnit o s).carrierEn = s.carrierEn := rfl
@[simp] theorem outputUnit_cphase (o : UnitOut) (s : State) : (outputUnit o s).cphase = s.cphase := rfl
@[simp] theorem outputUnit_stimerArmed (o : UnitOut) (s : State) : (outputUnit o s).stimerArmed = s.stimerArmed := rfl
@[simp] theorem outputUnit_stimerRem (o : UnitOut) (s : State) : (outputUnit o s).stimerRem = s.stimerRem := rfl
@[simp] theorem outputUnit_sreq (o : UnitOut) (s : State) : (outputUnit o s).sreq = s.sreq := rfl
@[simp] theorem outputUnit_fault (o : UnitOut) (s : State) : (outputUnit o s).fault = s.fault := rfl
@[simp] theorem outputUnit_pending (o : UnitOut) (s : State) : (outputUnit o s).pending = s.pending := rfl
@[simp] theorem outputUnit_inbox (o : UnitOut) (s : State) : (outputUnit o s).inbox = s.inbox := rfl
@[simp] theorem outputUnit_trace (o : UnitOut) (s : State) : (outputUnit o s).trace = s.trace := rfl
@[simp] theorem outputUnit_unitOut (o : UnitOut) (s : State) : (outputUnit o s).unitOut = o := rfl
@[simp] theorem outputUnit_resets (o : UnitOut) (s : State) : (outputUnit o s).resets = s.resets := rfl
@[simp] theorem outputUnit_waits (o : UnitOut) (s : State) : (outputUnit o s).waits = s.waits := rfl

/-! ### `sleepEntry` -/

@[simp] theorem sleepEntry_cfg (s : State) : (sleepEntry s).cfg = s.cfg := rfl
@[simp] theorem sleepEntry_cstate (s : State) : (sleepEntry s).cstate = .asleep := rfl
@[simp] theorem sleepEntry_reported (s : State) : (sleepEntry s).reported = s.reported := rfl
@[simp] theorem sleepEntry_lastC (s : State) : (sleepEntry s).lastC = s.lastC := rfl
@[simp] theorem sleepEntry_cycles (s : State) : (sleepEntry s).cycles = s.cycles := rfl
@[simp] theorem sleepEntry_cycSnap (s : State) : (sleepEntry s).cycSnap = s.cycSnap := rfl
@[simp] theorem sleepEntry_sampleMc (s : State) : (sleepEntry s).sampleMc = s.sampleMc := rfl
@[simp] theorem sleepEntry_frame (s : State) : (sleepEntry s).frame = s.frame := rfl
@[simp] theorem sleepEntry_mstate (s : State) : (sleepEntry s).mstate = s.mstate := rfl
@[simp] theorem sleepEntry_mcopy (s : State) : (sleepEntry s).mcopy = s.mcopy := rfl
@[simp] theorem sleepEntry_mbit (s : State) : (sleepEntry s).mbit = s.mbit := rfl
@[simp] theorem sleepEntry_mtimer (s : State) : (sleepEntry s).mtimer = s.mtimer := rfl
@[simp] theorem sleepEntry_carrierEn (s : State) : (sleepEntry s).carrierEn = s.carrierEn := rfl
@[simp] theorem sleepEntry_cphase (s : State) : (sleepEntry s).cphase = s.cphase := rfl
@[simp] theorem sleepEntry_stimerArmed (s : State) : (sleepEntry s).stimerArmed = true := rfl
@[simp] theorem sleepEntry_stimerRem (s : State) : (sleepEntry s).stimerRem = s.cfg.wakeS := rfl
@[simp] theorem sleepEntry_sreq (s : State) : (sleepEntry s).sreq = s.sreq := rfl
@[simp] theorem sleepEntry_fault (s : State) : (sleepEntry s).fault = s.fault := rfl
@[simp] theorem sleepEntry_pending (s : State) : (sleepEntry s).pending = s.pending := rfl
@[simp] theorem sleepEntry_inbox (s : State) : (sleepEntry s).inbox = s.inbox := rfl
@[simp] theorem sleepEntry_trace (s : State) : (sleepEntry s).trace = s.trace ++ [.sleep s.cfg.wakeS] := rfl
@[simp] theorem sleepEntry_unitOut (s : State) : (sleepEntry s).unitOut = s.unitOut := rfl
@[simp] theorem sleepEntry_resets (s : State) : (sleepEntry s).resets = s.resets := rfl
@[simp] theorem sleepEntry_waits (s : State) : (sleepEntry s).waits = s.waits := rfl

/-! ### `sampleEntry` -/

@[simp] theorem sampleEntry_cfg (s : State) : (sampleEntry s).cfg = s.cfg := rfl
@[simp] theorem sampleEntry_cstate (s : State) : (sampleEntry s).cstate = .awakeSampling := rfl
@[simp] theorem sampleEntry_reported (s : State) : (sampleEntry s).reported = s.reported := rfl
@[simp] theorem sampleEntry_lastC (s : State) : (sampleEntry s).lastC = s.lastC := rfl
@[simp] theorem sampleEntry_cycles (s : State) : (sampleEntry s).cycles = s.cycles := rfl
@[simp] theorem sampleEntry_cycSnap (s : State) : (sampleEntry s).cycSnap = s.cycSnap := rfl
@[simp] theorem sampleEntry_sampleMc (s : State) : (sampleEntry s).sampleMc = s.sampleMc := rfl
@[simp] theorem sampleEntry_frame (s : State) : (sampleEntry s).frame = s.frame := rfl
@[simp] theorem sampleEntry_mstate (s : State) : (sampleEntry s).mstate = s.mstate := rfl
@[simp] theorem sampleEntry_mcopy (s : State) : (sampleEntry s).mcopy = s.mcopy := rfl
@[simp] theorem sampleEntry_mbit (s : State) : (sampleEntry s).mbit = s.mbit := rfl
@[simp] theorem sampleEntry_mtimer (s : State) : (sampleEntry s).mtimer = s.mtimer := rfl
@[simp] theorem sampleEntry_carrierEn (s : State) : (sampleEntry s).carrierEn = s.carrierEn := rfl
@[simp] theorem sampleEntry_cphase (s : State) : (sampleEntry s).cphase = s.cphase := rfl
@[simp] theorem sampleEntry_stimerArmed (s : State) : (sampleEntry s).stimerArmed = s.stimerArmed := rfl
@[simp] theorem sampleEntry_stimerRem (s : State) : (sampleEntry s).stimerRem = s.stimerRem := rfl
@[simp] theorem sampleEntry_sreq (s : State) : (sampleEntry s).sreq = true := rfl
@[simp] theorem sampleEntry_fault (s : State) : (sampleEntry s).fault = s.fault := rfl
@[simp] theorem sampleEntry_pending (s : State) : (sampleEntry s).pending = s.pending := rfl
@[simp] theorem sampleEntry_inbox (s : State) : (sampleEntry s).inbox = s.inbox := rfl
@[simp] theorem sampleEntry_trace (s : State) : (sampleEntry s).trace = s.trace ++ [.sensorReq] := rfl
@[simp] theorem sampleEntry_unitOut (s : State) : (sampleEntry s).unitOut = s.unitOut := rfl
@[simp] theorem sampleEntry_resets (s : State) : (sampleEntry s).resets = s.resets := rfl
@[simp] theorem sampleEntry_waits (s : State) : (sampleEntry s).waits = s.waits := rfl

/-! ### `resetLoads` -/

@[simp] theorem resetLoads_cfg (s : State) : (resetLoads s).cfg = s.cfg := rfl
@[simp] theorem resetLoads_cstate (s : State) : (resetLoads s).cstate = s.cstate := rfl
@[simp] theorem resetLoads_reported (s : State) : (resetLoads s).reported = false := rfl
@[simp] theorem resetLoads_lastC (s : State) : (resetLoads s).lastC = 0#32 := rfl
@[simp] theorem resetLoads_cycles (s : State) : (resetLoads s).cycles = 0 := rfl
@[simp] theorem resetLoads_cycSnap (s : State) : (resetLoads s).cycSnap = 0 := rfl
@[simp] theorem resetLoads_sampleMc (s : State) : (resetLoads s).sampleMc = Config.freeSample s.resets := rfl
@[simp] theorem resetLoads_frame (s : State) : (resetLoads s).frame = Config.freeFrame s.resets := rfl
@[simp] theorem resetLoads_mstate (s : State) : (resetLoads s).mstate = .idle := rfl
@[simp] theorem resetLoads_mcopy (s : State) : (resetLoads s).mcopy = false := rfl
@[simp] theorem resetLoads_mbit (s : State) : (resetLoads s).mbit = 0 := rfl
@[simp] theorem resetLoads_mtimer (s : State) : (resetLoads s).mtimer = 0 := rfl
@[simp] theorem resetLoads_carrierEn (s : State) : (resetLoads s).carrierEn = false := rfl
@[simp] theorem resetLoads_cphase (s : State) : (resetLoads s).cphase = 0 := rfl
@[simp] theorem resetLoads_stimerArmed (s : State) : (resetLoads s).stimerArmed = false := rfl
@[simp] theorem resetLoads_stimerRem (s : State) : (resetLoads s).stimerRem = 0 := rfl
@[simp] theorem resetLoads_sreq (s : State) : (resetLoads s).sreq = s.sreq := rfl
@[simp] theorem resetLoads_fault (s : State) : (resetLoads s).fault = none := rfl
@[simp] theorem resetLoads_pending (s : State) : (resetLoads s).pending = none := rfl
@[simp] theorem resetLoads_inbox (s : State) : (resetLoads s).inbox = s.inbox := rfl
@[simp] theorem resetLoads_trace (s : State) : (resetLoads s).trace = s.trace := rfl
@[simp] theorem resetLoads_unitOut (s : State) : (resetLoads s).unitOut = s.unitOut := rfl
@[simp] theorem resetLoads_resets (s : State) : (resetLoads s).resets = s.resets + 1 := rfl
@[simp] theorem resetLoads_waits (s : State) : (resetLoads s).waits = s.waits := rfl

/-! ### `startMark` -/

@[simp] theorem startMark_cfg (m : MState) (d : Nat) (s : State) : (startMark m d s).cfg = s.cfg := rfl
@[simp] theorem startMark_cstate (m : MState) (d : Nat) (s : State) : (startMark m d s).cstate = s.cstate := rfl
@[simp] theorem startMark_reported (m : MState) (d : Nat) (s : State) : (startMark m d s).reported = s.reported := rfl
@[simp] theorem startMark_lastC (m : MState) (d : Nat) (s : State) : (startMark m d s).lastC = s.lastC := rfl
@[simp] theorem startMark_cycles (m : MState) (d : Nat) (s : State) : (startMark m d s).cycles = s.cycles := rfl
@[simp] theorem startMark_cycSnap (m : MState) (d : Nat) (s : State) : (startMark m d s).cycSnap = s.cycSnap := rfl
@[simp] theorem startMark_sampleMc (m : MState) (d : Nat) (s : State) : (startMark m d s).sampleMc = s.sampleMc := rfl
@[simp] theorem startMark_frame (m : MState) (d : Nat) (s : State) : (startMark m d s).frame = s.frame := rfl
@[simp] theorem startMark_mstate (m : MState) (d : Nat) (s : State) : (startMark m d s).mstate = m := rfl
@[simp] theorem startMark_mcopy (m : MState) (d : Nat) (s : State) : (startMark m d s).mcopy = s.mcopy := rfl
@[simp] theorem startMark_mbit (m : MState) (d : Nat) (s : State) : (startMark m d s).mbit = s.mbit := rfl
@[simp] theorem startMark_mtimer (m : MState) (d : Nat) (s : State) : (startMark m d s).mtimer = d := rfl
@[simp] theorem startMark_carrierEn (m : MState) (d : Nat) (s : State) : (startMark m d s).carrierEn = true := rfl
@[simp] theorem startMark_cphase (m : MState) (d : Nat) (s : State) : (startMark m d s).cphase = 0 := rfl
@[simp] theorem startMark_stimerArmed (m : MState) (d : Nat) (s : State) : (startMark m d s).stimerArmed = s.stimerArmed := rfl
@[simp] theorem startMark_stimerRem (m : MState) (d : Nat) (s : State) : (startMark m d s).stimerRem = s.stimerRem := rfl
@[simp] theorem startMark_sreq (m : MState) (d : Nat) (s : State) : (startMark m d s).sreq = s.sreq := rfl
@[simp] theorem startMark_fault (m : MState) (d : Nat) (s : State) : (startMark m d s).fault = s.fault := rfl
@[simp] theorem startMark_pending (m : MState) (d : Nat) (s : State) : (startMark m d s).pending = s.pending := rfl
@[simp] theorem startMark_inbox (m : MState) (d : Nat) (s : State) : (startMark m d s).inbox = s.inbox := rfl
@[simp] theorem startMark_trace (m : MState) (d : Nat) (s : State) : (startMark m d s).trace = s.trace ++ [.pulse (mark d)] := rfl
@[simp] theorem startMark_unitOut (m : MState) (d : Nat) (s : State) : (startMark m d s).unitOut = s.unitOut := rfl
@[simp] theorem startMark_resets (m : MState) (d : Nat) (s : State) : (startMark m d s).resets = s.resets := rfl
@[simp] theorem startMark_waits (m : MState) (d : Nat) (s : State) : (startMark m d s).waits = s.waits := rfl

/-! ### `startSpace` -/

@[simp] theorem startSpace_cfg (m : MState) (d : Nat) (s : State) : (startSpace m d s).cfg = s.cfg := rfl
@[simp] theorem startSpace_cstate (m : MState) (d : Nat) (s : State) : (startSpace m d s).cstate = s.cstate := rfl
@[simp] theorem startSpace_reported (m : MState) (d : Nat) (s : State) : (startSpace m d s).reported = s.reported := rfl
@[simp] theorem startSpace_lastC (m : MState) (d : Nat) (s : State) : (startSpace m d s).lastC = s.lastC := rfl
@[simp] theorem startSpace_cycles (m : MState) (d : Nat) (s : State) : (startSpace m d s).cycles = s.cycles := rfl
@[simp] theorem startSpace_cycSnap (m : MState) (d : Nat) (s : State) : (startSpace m d s).cycSnap = s.cycSnap := rfl
@[simp] theorem startSpace_sampleMc (m : MState) (d : Nat) (s : State) : (startSpace m d s).sampleMc = s.sampleMc := rfl
@[simp] theorem startSpace_frame (m : MState) (d : Nat) (s : State) : (startSpace m d s).frame = s.frame := rfl
@[simp] theorem startSpace_mstate (m : MState) (d : Nat) (s : State) : (startSpace m d s).mstate = m := rfl
@[simp] theorem startSpace_mcopy (m : MState) (d : Nat) (s : State) : (startSpace m d s).mcopy = s.mcopy := rfl
@[simp] theorem startSpace_mbit (m : MState) (d : Nat) (s : State) : (startSpace m d s).mbit = s.mbit := rfl
@[simp] theorem startSpace_mtimer (m : MState) (d : Nat) (s : State) : (startSpace m d s).mtimer = d := rfl
@[simp] theorem startSpace_carrierEn (m : MState) (d : Nat) (s : State) : (startSpace m d s).carrierEn = false := rfl
@[simp] theorem startSpace_cphase (m : MState) (d : Nat) (s : State) : (startSpace m d s).cphase = s.cphase := rfl
@[simp] theorem startSpace_stimerArmed (m : MState) (d : Nat) (s : State) : (startSpace m d s).stimerArmed = s.stimerArmed := rfl
@[simp] theorem startSpace_stimerRem (m : MState) (d : Nat) (s : State) : (startSpace m d s).stimerRem = s.stimerRem := rfl
@[simp] theorem startSpace_sreq (m : MState) (d : Nat) (s : State) : (startSpace m d s).sreq = s.sreq := rfl
@[simp] theorem startSpace_fault (m : MState) (d : Nat) (s : State) : (startSpace m d s).fault = s.fault := rfl
@[simp] theorem startSpace_pending (m : MState) (d : Nat) (s : State) : (startSpace m d s).pending = s.pending := rfl
@[simp] theorem startSpace_inbox (m : MState) (d : Nat) (s : State) : (startSpace m d s).inbox = s.inbox := rfl
@[simp] theorem startSpace_trace (m : MState) (d : Nat) (s : State) : (startSpace m d s).trace = s.trace ++ [.pulse (space d)] := rfl
@[simp] theorem startSpace_unitOut (m : MState) (d : Nat) (s : State) : (startSpace m d s).unitOut = s.unitOut := rfl
@[simp] theorem startSpace_resets (m : MState) (d : Nat) (s : State) : (startSpace m d s).resets = s.resets := rfl
@[simp] theorem startSpace_waits (m : MState) (d : Nat) (s : State) : (startSpace m d s).waits = s.waits := rfl

/-! ### `elapseUnit` -/

@[simp] theorem elapseUnit_cfg (s : State) : (elapseUnit s).cfg = s.cfg := rfl
@[simp] theorem elapseUnit_cstate (s : State) : (elapseUnit s).cstate = s.cstate := rfl
@[simp] theorem elapseUnit_reported (s : State) : (elapseUnit s).reported = s.reported := rfl
@[simp] theorem elapseUnit_lastC (s : State) : (elapseUnit s).lastC = s.lastC := rfl
@[simp] theorem elapseUnit_cycles (s : State) : (elapseUnit s).cycles = s.cycles := rfl
@[simp] theorem elapseUnit_cycSnap (s : State) : (elapseUnit s).cycSnap = s.cycSnap := rfl
@[simp] theorem elapseUnit_sampleMc (s : State) : (elapseUnit s).sampleMc = s.sampleMc := rfl
@[simp] theorem elapseUnit_frame (s : State) : (elapseUnit s).frame = s.frame := rfl
@[simp] theorem elapseUnit_mstate (s : State) : (elapseUnit s).mstate = s.mstate := rfl
@[simp] theorem elapseUnit_mcopy (s : State) : (elapseUnit s).mcopy = s.mcopy := rfl
@[simp] theorem elapseUnit_mbit (s : State) : (elapseUnit s).mbit = s.mbit := rfl
@[simp] theorem elapseUnit_mtimer (s : State) : (elapseUnit s).mtimer = s.mtimer - 1 := rfl
@[simp] theorem elapseUnit_carrierEn (s : State) : (elapseUnit s).carrierEn = s.carrierEn := rfl
@[simp] theorem elapseUnit_cphase (s : State) : (elapseUnit s).cphase = advancePhase (s.cfg.uUs : Nat) s := rfl
@[simp] theorem elapseUnit_stimerArmed (s : State) : (elapseUnit s).stimerArmed = s.stimerArmed := rfl
@[simp] theorem elapseUnit_stimerRem (s : State) : (elapseUnit s).stimerRem = s.stimerRem := rfl
@[simp] theorem elapseUnit_sreq (s : State) : (elapseUnit s).sreq = s.sreq := rfl
@[simp] theorem elapseUnit_fault (s : State) : (elapseUnit s).fault = s.fault := rfl
@[simp] theorem elapseUnit_pending (s : State) : (elapseUnit s).pending = s.pending := rfl
@[simp] theorem elapseUnit_inbox (s : State) : (elapseUnit s).inbox = s.inbox := rfl
@[simp] theorem elapseUnit_trace (s : State) : (elapseUnit s).trace = s.trace := rfl
@[simp] theorem elapseUnit_unitOut (s : State) : (elapseUnit s).unitOut = s.unitOut := rfl
@[simp] theorem elapseUnit_resets (s : State) : (elapseUnit s).resets = s.resets := rfl
@[simp] theorem elapseUnit_waits (s : State) : (elapseUnit s).waits = s.waits := rfl

/-! ### `elapseSecond` -/

@[simp] theorem elapseSecond_cfg (s : State) : (elapseSecond s).cfg = s.cfg := rfl
@[simp] theorem elapseSecond_cstate (s : State) : (elapseSecond s).cstate = s.cstate := rfl
@[simp] theorem elapseSecond_reported (s : State) : (elapseSecond s).reported = s.reported := rfl
@[simp] theorem elapseSecond_lastC (s : State) : (elapseSecond s).lastC = s.lastC := rfl
@[simp] theorem elapseSecond_cycles (s : State) : (elapseSecond s).cycles = s.cycles := rfl
@[simp] theorem elapseSecond_cycSnap (s : State) : (elapseSecond s).cycSnap = s.cycSnap := rfl
@[simp] theorem elapseSecond_sampleMc (s : State) : (elapseSecond s).sampleMc = s.sampleMc := rfl
@[simp] theorem elapseSecond_frame (s : State) : (elapseSecond s).frame = s.frame := rfl
@[simp] theorem elapseSecond_mstate (s : State) : (elapseSecond s).mstate = s.mstate := rfl
@[simp] theorem elapseSecond_mcopy (s : State) : (elapseSecond s).mcopy = s.mcopy := rfl
@[simp] theorem elapseSecond_mbit (s : State) : (elapseSecond s).mbit = s.mbit := rfl
@[simp] theorem elapseSecond_mtimer (s : State) : (elapseSecond s).mtimer = s.mtimer := rfl
@[simp] theorem elapseSecond_carrierEn (s : State) : (elapseSecond s).carrierEn = s.carrierEn := rfl
@[simp] theorem elapseSecond_cphase (s : State) : (elapseSecond s).cphase = s.cphase := rfl
@[simp] theorem elapseSecond_stimerArmed (s : State) : (elapseSecond s).stimerArmed = s.stimerArmed := rfl
@[simp] theorem elapseSecond_stimerRem (s : State) : (elapseSecond s).stimerRem = s.stimerRem - 1 := rfl
@[simp] theorem elapseSecond_sreq (s : State) : (elapseSecond s).sreq = s.sreq := rfl
@[simp] theorem elapseSecond_fault (s : State) : (elapseSecond s).fault = s.fault := rfl
@[simp] theorem elapseSecond_pending (s : State) : (elapseSecond s).pending = s.pending := rfl
@[simp] theorem elapseSecond_inbox (s : State) : (elapseSecond s).inbox = s.inbox := rfl
@[simp] theorem elapseSecond_trace (s : State) : (elapseSecond s).trace = s.trace := rfl
@[simp] theorem elapseSecond_unitOut (s : State) : (elapseSecond s).unitOut = s.unitOut := rfl
@[simp] theorem elapseSecond_resets (s : State) : (elapseSecond s).resets = s.resets := rfl
@[simp] theorem elapseSecond_waits (s : State) : (elapseSecond s).waits = s.waits := rfl

/-! ### `elapseWait` -/

@[simp] theorem elapseWait_cfg (s : State) : (elapseWait s).cfg = s.cfg := rfl
@[simp] theorem elapseWait_cstate (s : State) : (elapseWait s).cstate = s.cstate := rfl
@[simp] theorem elapseWait_reported (s : State) : (elapseWait s).reported = s.reported := rfl
@[simp] theorem elapseWait_lastC (s : State) : (elapseWait s).lastC = s.lastC := rfl
@[simp] theorem elapseWait_cycles (s : State) : (elapseWait s).cycles = s.cycles := rfl
@[simp] theorem elapseWait_cycSnap (s : State) : (elapseWait s).cycSnap = s.cycSnap := rfl
@[simp] theorem elapseWait_sampleMc (s : State) : (elapseWait s).sampleMc = s.sampleMc := rfl
@[simp] theorem elapseWait_frame (s : State) : (elapseWait s).frame = s.frame := rfl
@[simp] theorem elapseWait_mstate (s : State) : (elapseWait s).mstate = s.mstate := rfl
@[simp] theorem elapseWait_mcopy (s : State) : (elapseWait s).mcopy = s.mcopy := rfl
@[simp] theorem elapseWait_mbit (s : State) : (elapseWait s).mbit = s.mbit := rfl
@[simp] theorem elapseWait_mtimer (s : State) : (elapseWait s).mtimer = s.mtimer := rfl
@[simp] theorem elapseWait_carrierEn (s : State) : (elapseWait s).carrierEn = s.carrierEn := rfl
@[simp] theorem elapseWait_cphase (s : State) : (elapseWait s).cphase = advancePhase (Config.freeWait s.waits) s := rfl
@[simp] theorem elapseWait_stimerArmed (s : State) : (elapseWait s).stimerArmed = s.stimerArmed := rfl
@[simp] theorem elapseWait_stimerRem (s : State) : (elapseWait s).stimerRem = s.stimerRem := rfl
@[simp] theorem elapseWait_sreq (s : State) : (elapseWait s).sreq = s.sreq := rfl
@[simp] theorem elapseWait_fault (s : State) : (elapseWait s).fault = s.fault := rfl
@[simp] theorem elapseWait_pending (s : State) : (elapseWait s).pending = s.pending := rfl
@[simp] theorem elapseWait_inbox (s : State) : (elapseWait s).inbox = s.inbox := rfl
@[simp] theorem elapseWait_trace (s : State) : (elapseWait s).trace = s.trace := rfl
@[simp] theorem elapseWait_unitOut (s : State) : (elapseWait s).unitOut = s.unitOut := rfl
@[simp] theorem elapseWait_resets (s : State) : (elapseWait s).resets = s.resets := rfl
@[simp] theorem elapseWait_waits (s : State) : (elapseWait s).waits = s.waits + 1 := rfl

/-! ### `finishPulse` -/

@[simp] theorem finishPulse_cfg (s : State) : (finishPulse s).cfg = s.cfg := rfl
@[simp] theorem finishPulse_cstate (s : State) : (finishPulse s).cstate = s.cstate := rfl
@[simp] theorem finishPulse_reported (s : State) : (finishPulse s).reported = s.reported := rfl
@[simp] theorem finishPulse_lastC (s : State) : (finishPulse s).lastC = s.lastC := rfl
@[simp] theorem finishPulse_cycles (s : State) : (finishPulse s).cycles = s.cycles := rfl
@[simp] theorem finishPulse_cycSnap (s : State) : (finishPulse s).cycSnap = s.cycSnap := rfl
@[simp] theorem finishPulse_sampleMc (s : State) : (finishPulse s).sampleMc = s.sampleMc := rfl
@[simp] theorem finishPulse_frame (s : State) : (finishPulse s).frame = s.frame := rfl
@[simp] theorem finishPulse_mstate (s : State) : (finishPulse s).mstate = s.mstate := rfl
@[simp] theorem finishPulse_mcopy (s : State) : (finishPulse s).mcopy = s.mcopy := rfl
@[simp] theorem finishPulse_mbit (s : State) : (finishPulse s).mbit = s.mbit := rfl
@[simp] theorem finishPulse_mtimer (s : State) : (finishPulse s).mtimer = 0 := rfl
@[simp] theorem finishPulse_carrierEn (s : State) : (finishPulse s).carrierEn = s.carrierEn := rfl
@[simp] theorem finishPulse_cphase (s : State) : (finishPulse s).cphase = advancePhase (s.cfg.uUs * s.mtimer : Nat) s := rfl
@[simp] theorem finishPulse_stimerArmed (s : State) : (finishPulse s).stimerArmed = s.stimerArmed := rfl
@[simp] theorem finishPulse_stimerRem (s : State) : (finishPulse s).stimerRem = s.stimerRem := rfl
@[simp] theorem finishPulse_sreq (s : State) : (finishPulse s).sreq = s.sreq := rfl
@[simp] theorem finishPulse_fault (s : State) : (finishPulse s).fault = s.fault := rfl
@[simp] theorem finishPulse_pending (s : State) : (finishPulse s).pending = s.pending := rfl
@[simp] theorem finishPulse_inbox (s : State) : (finishPulse s).inbox = s.inbox := rfl
@[simp] theorem finishPulse_trace (s : State) : (finishPulse s).trace = s.trace := rfl
@[simp] theorem finishPulse_unitOut (s : State) : (finishPulse s).unitOut = s.unitOut := rfl
@[simp] theorem finishPulse_resets (s : State) : (finishPulse s).resets = s.resets := rfl
@[simp] theorem finishPulse_waits (s : State) : (finishPulse s).waits = s.waits := rfl

/-! ### `finishSleep` -/

@[simp] theorem finishSleep_cfg (s : State) : (finishSleep s).cfg = s.cfg := rfl
@[simp] theorem finishSleep_cstate (s : State) : (finishSleep s).cstate = s.cstate := rfl
@[simp] theorem finishSleep_reported (s : State) : (finishSleep s).reported = s.reported := rfl
@[simp] theorem finishSleep_lastC (s : State) : (finishSleep s).lastC = s.lastC := rfl
@[simp] theorem finishSleep_cycles (s : State) : (finishSleep s).cycles = s.cycles := rfl
@[simp] theorem finishSleep_cycSnap (s : State) : (finishSleep s).cycSnap = s.cycSnap := rfl
@[simp] theorem finishSleep_sampleMc (s : State) : (finishSleep s).sampleMc = s.sampleMc := rfl
@[simp] theorem finishSleep_frame (s : State) : (finishSleep s).frame = s.frame := rfl
@[simp] theorem finishSleep_mstate (s : State) : (finishSleep s).mstate = s.mstate := rfl
@[simp] theorem finishSleep_mcopy (s : State) : (finishSleep s).mcopy = s.mcopy := rfl
@[simp] theorem finishSleep_mbit (s : State) : (finishSleep s).mbit = s.mbit := rfl
@[simp] theorem finishSleep_mtimer (s : State) : (finishSleep s).mtimer = s.mtimer := rfl
@[simp] theorem finishSleep_carrierEn (s : State) : (finishSleep s).carrierEn = s.carrierEn := rfl
@[simp] theorem finishSleep_cphase (s : State) : (finishSleep s).cphase = s.cphase := rfl
@[simp] theorem finishSleep_stimerArmed (s : State) : (finishSleep s).stimerArmed = s.stimerArmed := rfl
@[simp] theorem finishSleep_stimerRem (s : State) : (finishSleep s).stimerRem = 0 := rfl
@[simp] theorem finishSleep_sreq (s : State) : (finishSleep s).sreq = s.sreq := rfl
@[simp] theorem finishSleep_fault (s : State) : (finishSleep s).fault = s.fault := rfl
@[simp] theorem finishSleep_pending (s : State) : (finishSleep s).pending = s.pending := rfl
@[simp] theorem finishSleep_inbox (s : State) : (finishSleep s).inbox = s.inbox := rfl
@[simp] theorem finishSleep_trace (s : State) : (finishSleep s).trace = s.trace := rfl
@[simp] theorem finishSleep_unitOut (s : State) : (finishSleep s).unitOut = s.unitOut := rfl
@[simp] theorem finishSleep_resets (s : State) : (finishSleep s).resets = s.resets := rfl
@[simp] theorem finishSleep_waits (s : State) : (finishSleep s).waits = s.waits := rfl

end Sys2Proof.Machine
end

