-- ==== Sys2Proof/Laws/Ops.lean ====
section
/-! SUPPORT. What the shared operations can do, said once: the gate every meaning passes, the clamp and the
encoder's contract, and the ways a step can go. -/

namespace Sys2Proof.Machine

/-! ### The gate -/

theorem gate_live (s e : State) (p : Prop) [Decidable p] (h : Live s) (hp : p) : gate s p e = .next e := by
  simp [gate, h.1, h.2, hp]

theorem gate_illegal (s e : State) (p : Prop) [Decidable p] (hf : s.fault = none)
    (h : s.mstate = .reserved ∨ ¬ p) : gate s p e = .next { s with fault := some .illegalEvent } := by
  simp [gate, hf, h, raise]

theorem gate_faulted (s e : State) (p : Prop) [Decidable p] (h : s.fault ≠ none) : gate s p e = .next s := by
  unfold gate
  split
  · rfl
  · contradiction

/-- Everything the gate can do. -/
theorem gate_cases {s e t : State} {p : Prop} [Decidable p] (h : gate s p e = .next t) :
    (s.fault ≠ none ∧ t = s) ∨
      (s.fault = none ∧ (s.mstate = .reserved ∨ ¬ p) ∧ t = { s with fault := some .illegalEvent }) ∨
      (Live s ∧ p ∧ t = e) := by
  by_cases hf : s.fault = none
  · by_cases hm : s.mstate = .reserved ∨ ¬ p
    · rw [gate_illegal s e p hf hm] at h
      cases h
      exact .inr (.inl ⟨hf, hm, rfl⟩)
    · rw [not_or, not_not] at hm
      rw [gate_live s e p ⟨hf, hm.1⟩ hm.2] at h
      cases h
      exact .inr (.inr ⟨⟨hf, hm.1⟩, hm.2, rfl⟩)
  · rw [gate_faulted s e p hf] at h
    cases h
    exact .inl ⟨hf, rfl⟩

theorem gate_answers (s e : State) (p : Prop) [Decidable p] : ∃ t, gate s p e = .next t := by
  unfold gate
  split
  · exact ⟨_, rfl⟩
  · split <;> exact ⟨_, rfl⟩

/-! ### The updates as whole records -/

theorem sleepEntry_eq (s : State) : sleepEntry s =
    { s with
      cstate := .asleep, stimerArmed := true, stimerRem := s.cfg.wakeS
      trace := s.trace ++ [.sleep s.cfg.wakeS] } := rfl

theorem sampleEntry_eq (s : State) : sampleEntry s =
    { s with cstate := .awakeSampling, sreq := true, trace := s.trace ++ [.sensorReq] } := rfl

theorem startMark_eq (m : MState) (d : Nat) (s : State) : startMark m d s =
    { s with
      mstate := m, carrierEn := true, cphase := 0, mtimer := d
      trace := s.trace ++ [.pulse (mark d)] } := rfl

theorem startSpace_eq (m : MState) (d : Nat) (s : State) : startSpace m d s =
    { s with mstate := m, carrierEn := false, mtimer := d, trace := s.trace ++ [.pulse (space d)] } := rfl

/-! ### Time -/

/-- Time never takes CPHASE back. -/
theorem le_advancePhase {us : Rat} (h : 0 ≤ us) (s : State) : s.cphase ≤ advancePhase us s :=
  le_add_of_nonneg_right h

theorem freeWait_nonneg (n : Nat) : (0 : Rat) ≤ Config.freeWait n := (Config.freeWait n).2

/-! ### Temperatures and the encoder -/

/-- Truncation toward zero by the floor of the absolute value (R11, R105). -/
theorem truncC_eq (v : Word32) :
    truncC v = if 0 ≤ v.toInt then v.toInt / 1000 else -(-v.toInt / 1000) := by
  unfold truncC
  split
  case isTrue h => exact Int.tdiv_eq_ediv_of_nonneg h
  case isFalse h =>
    rw [show v.toInt.tdiv 1000 = -((-v.toInt).tdiv 1000) by rw [Int.neg_tdiv, neg_neg],
      Int.tdiv_eq_ediv_of_nonneg (by omega)]

theorem truncC_bounds (v : Word32) : -2147483 ≤ truncC v ∧ truncC v ≤ 2147483 := by
  have h1 := BitVec.toInt_lt (x := v)
  have h2 := BitVec.le_toInt (x := v)
  rw [truncC_eq]
  split <;> omega

/-- A truncated sample fits LAST_C: reading it back gives the value written. -/
theorem truncC_roundtrip (v : Word32) : (BitVec.ofInt 32 (truncC v)).toInt = truncC v := by
  have h := truncC_bounds v
  rw [BitVec.toInt_ofInt, Int.bmod_def]
  omega

theorem valid_iff (p : Params) : p.valid = true ↔
    (1 ≤ p.uUs ∧ 1 ≤ p.hdrMark ∧ 1 ≤ p.hdrSpace ∧ 1 ≤ p.bitMark
      ∧ 1 ≤ p.zeroSpace ∧ p.zeroSpace < p.oneSpace
      ∧ 1 ≤ p.ftrMark ∧ 1 ≤ p.ftrSpace
      ∧ 1 ≤ p.carrierHz ∧ 1 ≤ p.dutyPct ∧ p.dutyPct ≤ 99
      ∧ -1 ≤ p.tempMin ∧ p.tempMin ≤ p.tempMax ∧ p.tempMax ≤ 126
      ∧ 1 ≤ p.cntW) := decide_eq_true_iff

theorem valid_temps {p : Params} (h : p.valid = true) :
    -1 ≤ p.tempMin ∧ p.tempMin ≤ p.tempMax ∧ p.tempMax ≤ 126 := by
  obtain ⟨-, -, -, -, -, -, -, -, -, -, -, h1, h2, h3, -⟩ := (valid_iff p).mp h
  exact ⟨h1, h2, h3⟩

theorem clampT_range {p : Params} (h : p.tempMin ≤ p.tempMax) (t : Int) :
    p.tempMin ≤ clampT p t ∧ clampT p t ≤ p.tempMax := by
  unfold clampT clamp
  split
  · omega
  · split <;> omega

theorem buildFrame_in {p : Params} {t : Int} (h : p.tempMin ≤ t ∧ t ≤ p.tempMax) :
    buildFrame p t = some (makeFrame p t) := if_pos h

theorem buildFrame_out {p : Params} {t : Int} (h : ¬ (p.tempMin ≤ t ∧ t ≤ p.tempMax)) :
    buildFrame p t = none := if_neg h

/-- With temperature bounds in order the encoder accepts the clamped sample. -/
theorem transmitEffect_eq {s : State} (h : s.cfg.tempMin ≤ s.cfg.tempMax) : transmitEffect s =
    { s with
      frame := makeFrame s.cfg (clampT s.cfg (truncC s.sampleMc))
      cstate := .awakeTransmitting, pending := some .modStart } := by
  unfold transmitEffect
  rw [buildFrame_in (clampT_range h _)]
  rfl

/-! ### Steps -/

theorem step_of_valid {s : State} (h : s.cfg.valid = true) : step s = runDue (due s) (arrive s) := if_pos h

theorem step_of_invalid {s : State} (h : s.cfg.valid = false) : step s = .refused .badParameters := by
  simp [step, h]

/-- Every meaning answers a next state. -/
theorem exec_answers (i : Instr) (s : State) : ∃ t, exec i s = .next t := by
  cases i
  case reset => exact ⟨_, rfl⟩
  all_goals exact gate_answers ..

/-- Taking a word is taking the instruction it decodes to, or raising its fault, unless the block is
faulted. -/
theorem takeWord_cases (w : EventWord) (s : State) :
    (s.fault ≠ none ∧ w ≠ resetWord ∧ takeWord w s = .next s) ∨
      (∃ i, decodeEvent s.cstate s.mstate w = .legal i ∧ takeWord w s = exec i (expire i s)) ∨
      (decodeEvent s.cstate s.mstate w = .reservedEncoding ∧
        takeWord w s = .next (raise .reservedEncoding s)) ∨
      (decodeEvent s.cstate s.mstate w = .illegalEvent ∧ takeWord w s = .next (raise .illegalEvent s)) ∨
      (decodeEvent s.cstate s.mstate w = .unassignedUnit ∧ takeWord w s = .refused .unassignedUnit) := by
  by_cases h : s.fault.isSome ∧ w ≠ resetWord
  · refine .inl ⟨?_, h.2, if_pos h⟩
    intro h0
    simp [h0] at h
  · right
    have e : takeWord w s = match decodeEvent s.cstate s.mstate w with
      | .legal i => exec i (expire i s)
      | .reservedEncoding => carryOut .reservedEncoding s
      | .illegalEvent => carryOut .illegalEvent s
      | .unassignedUnit => carryOut .unassignedUnit s := if_neg h
    cases hd : decodeEvent s.cstate s.mstate w with
    | legal i => exact .inl ⟨i, rfl, by rw [e, hd]⟩
    | reservedEncoding => exact .inr (.inl ⟨rfl, by rw [e, hd]; rfl⟩)
    | illegalEvent => exact .inr (.inr (.inl ⟨rfl, by rw [e, hd]; rfl⟩))
    | unassignedUnit => exact .inr (.inr (.inr ⟨rfl, by rw [e, hd]; rfl⟩))

/-- What is due never depends on a register the timers do not name: with nothing arriving, nothing posted and
no fault, the timers decide. -/
theorem due_quiet {s : State} (hi : s.inbox = []) (hp : s.pending = none) (hf : s.fault = none) :
    due s = timersDue s := by
  simp [due, nextPosted, hi, hp, hf]

theorem arrive_quiet {s : State} (hi : s.inbox = []) : arrive s = s := by
  have h : inboxAfter s = [] := by
    unfold inboxAfter
    rw [hi]
    simp only [List.head?_nil, Option.any_none, Bool.false_eq_true, if_false, List.tail_nil]
    split
    · rfl
    · cases nextPosted s <;> rfl
  unfold arrive
  rw [h, ← hi]

end Sys2Proof.Machine
end

