-- ==== Sys2Proof/Laws/PerInstr.lean ====
section
/-! SUPPORT. The family of laws made per instruction: the encoder writes a word that matches the
instruction's row of the opcode table, by the row's own mask and match. -/

namespace Sys2Proof.Laws.MatchesTable

/-- The bits of a code word as one number, bit 0 least significant, as the opcode table numbers them. -/
def bits : CodeWord → Nat
  | .ctl k => k.toNat
  | .mod k => k.toNat
  | .unit u => u.toNat
  | .sym c => c.toNat

/-- Mask and match of the instruction's row of the opcode table. -/
def row : Instr → Nat × Nat
  | .reset => (0x0FFFFFFFFFF, 0x00100000000)
  | .wake => (0x3FFFFFFFFFF, 0x30200000000)
  | .senseOk _ => (0x3FF00000000, 0x00300000000)
  | .senseFail => (0x3FFFFFFFFFF, 0x00400000000)
  | .tick => (0x3FFFFFFFFFF, 0x10500000000)
  | .txDone => (0x3FFFFFFFFFF, 0x20600000000)
  | .modStart => (0x7FFFFFFFFFF, 0x01000000000)
  | .modHdrMarkEnd => (0x7FFFFFFFFFF, 0x11100000000)
  | .modHdrSpaceEnd => (0x7FFFFFFFFFF, 0x21100000000)
  | .modBitMarkEnd => (0x7FFFFFFFFFF, 0x31100000000)
  | .modBitSpaceEnd => (0x7FFFFFFFFFF, 0x41100000000)
  | .modFtrMarkEnd => (0x7FFFFFFFFFF, 0x51100000000)
  | .modFtrSpaceEnd => (0x7FFFFFFFFFF, 0x61100000000)
  | .rev8 _ => (0xF, 0x1)
  | .checksum _ _ _ _ _ => (0xF, 0x2)
  | .buildFrame _ => (0xF, 0x3)
  | .verifyFrame _ => (0xF, 0x4)
  | .clampT _ => (0xF, 0x5)
  | .truncC _ => (0xF, 0x6)
  | .trigger _ => (0xF, 0x7)
  | .copy _ _ => (0xF, 0x8)
  | .pulseTrain _ => (0xF, 0x9)
  | .carrier => (0xF, 0xA)
  | .symHdr => (0b11, 0b00)
  | .symBit0 => (0b11, 0b01)
  | .symBit1 => (0b11, 0b10)
  | .symFtr => (0b11, 0b11)

/-- The encoded word, under the row's mask, is the row's match. -/
def Statement (i : Instr) : Prop := i.wf = true → bits (encode i) &&& (row i).1 = (row i).2

theorem unit_select (sel : BitVec 4) (ops : BitVec 56) : (unitWord sel ops).toNat &&& 0xF = sel.toNat := by
  have h := congrArg BitVec.toNat (unitSel_unitWord sel ops)
  rw [unitSel, BitVec.extractLsb'_toNat, Nat.shiftRight_zero] at h
  rw [← h]
  exact Nat.and_two_pow_sub_one_eq_mod _ 4

theorem reset : Statement .reset := fun _ => by decide

theorem wake : Statement .wake := fun _ => by decide

theorem senseOk (v : Word32) : Statement (.senseOk v) := by
  intro _
  exact congrArg BitVec.toNat
    ((ctlKey_code .awakeSampling (senseOkWord v)).mpr ⟨rfl, evCode_eventWord 0x03#8 v⟩)

theorem senseFail : Statement .senseFail := fun _ => by decide

theorem tick : Statement .tick := fun _ => by decide

theorem txDone : Statement .txDone := fun _ => by decide

theorem modStart : Statement .modStart := fun _ => by decide

theorem modHdrMarkEnd : Statement .modHdrMarkEnd := fun _ => by decide

theorem modHdrSpaceEnd : Statement .modHdrSpaceEnd := fun _ => by decide

theorem modBitMarkEnd : Statement .modBitMarkEnd := fun _ => by decide

theorem modBitSpaceEnd : Statement .modBitSpaceEnd := fun _ => by decide

theorem modFtrMarkEnd : Statement .modFtrMarkEnd := fun _ => by decide

theorem modFtrSpaceEnd : Statement .modFtrSpaceEnd := fun _ => by decide

theorem rev8 (b : Byte) : Statement (.rev8 b) := fun _ => unit_select _ _

theorem checksum (b0 b1 b2 b3 b4 : Byte) : Statement (.checksum b0 b1 b2 b3 b4) := fun _ => unit_select _ _

theorem buildFrame (t : Int) : Statement (.buildFrame t) := fun _ => unit_select _ _

theorem verifyFrame (f : Frame) : Statement (.verifyFrame f) := fun _ => unit_select _ _

theorem clampT (t : Int) : Statement (.clampT t) := fun _ => unit_select _ _

theorem truncC (v : Word32) : Statement (.truncC v) := fun _ => unit_select _ _

theorem trigger (t : Int) : Statement (.trigger t) := fun _ => unit_select _ _

theorem copy (f : Frame) (c : Bool) : Statement (.copy f c) := fun _ => unit_select _ _

theorem pulseTrain (f : Frame) : Statement (.pulseTrain f) := fun _ => unit_select _ _

theorem carrier : Statement .carrier := fun _ => unit_select _ _

theorem symHdr : Statement .symHdr := fun _ => by decide

theorem symBit0 : Statement .symBit0 := fun _ => by decide

theorem symBit1 : Statement .symBit1 := fun _ => by decide

theorem symFtr : Statement .symFtr := fun _ => by decide

end Sys2Proof.Laws.MatchesTable
end

