-- ==== Sys2Proof/Laws/Step.lean ====
section
/-! SUPPORT. Everything a step can do, said once, for the invariants to be derived from. -/

namespace Sys2Proof.Machine

@[simp] theorem arrive_cfg (s : State) : (arrive s).cfg = s.cfg := rfl
@[simp] theorem arrive_cstate (s : State) : (arrive s).cstate = s.cstate := rfl
@[simp] theorem arrive_reported (s : State) : (arrive s).reported = s.reported := rfl
@[simp] theorem arrive_lastC (s : State) : (arrive s).lastC = s.lastC := rfl
@[simp] theorem arrive_cycles (s : State) : (arrive s).cycles = s.cycles := rfl
@[simp] theorem arrive_cycSnap (s : State) : (arrive s).cycSnap = s.cycSnap := rfl
@[simp] theorem arrive_sampleMc (s : State) : (arrive s).sampleMc = s.sampleMc := rfl
@[simp] theorem arrive_frame (s : State) : (arrive s).frame = s.frame := rfl
@[simp] theorem arrive_mstate (s : State) : (arrive s).mstate = s.mstate := rfl
@[simp] theorem arrive_mcopy (s : State) : (arrive s).mcopy = s.mcopy := rfl
@[simp] theorem arrive_mbit (s : State) : (arrive s).mbit = s.mbit := rfl
@[simp] theorem arrive_mtimer (s : State) : (arrive s).mtimer = s.mtimer := rfl
@[simp] theorem arrive_carrierEn (s : State) : (arrive s).carrierEn = s.carrierEn := rfl
@[simp] theorem arrive_cphase (s : State) : (arrive s).cphase = s.cphase := rfl
@[simp] theorem arrive_stimerArmed (s : State) : (arrive s).stimerArmed = s.stimerArmed := rfl
@[simp] theorem arrive_stimerRem (s : State) : (arrive s).stimerRem = s.stimerRem := rfl
@[simp] theorem arrive_sreq (s : State) : (arrive s).sreq = s.sreq := rfl
@[simp] theorem arrive_fault (s : State) : (arrive s).fault = s.fault := rfl
@[simp] theorem arrive_pending (s : State) : (arrive s).pending = s.pending := rfl
@[simp] theorem arrive_trace (s : State) : (arrive s).trace = s.trace := rfl
@[simp] theorem arrive_resets (s : State) : (arrive s).resets = s.resets := rfl
@[simp] theorem arrive_waits (s : State) : (arrive s).waits = s.waits := rfl

/-- Time passes for the pulse only while one is timed, and for the sleep only while the block sleeps. -/
theorem timersDue_cases (s : State) :
    (s.mstate = .reserved ∧ timersDue s = .badState) ∨
      (s.mstate ≠ .reserved ∧ s.mstate ≠ .idle ∧ s.mtimer = 0 ∧ timersDue s = .word pulseEndWord) ∨
      (s.mstate ≠ .reserved ∧ s.mstate ≠ .idle ∧ s.mtimer ≠ 0 ∧ timersDue s = .unitOfTime) ∨
      (s.mstate = .idle ∧ s.cstate = .asleep ∧ 1 ≤ s.cfg.wakeS ∧ s.stimerRem = 0 ∧
        timersDue s = .word wakeWord) ∨
      (s.mstate = .idle ∧ s.cstate = .asleep ∧ 1 ≤ s.cfg.wakeS ∧ s.stimerRem ≠ 0 ∧ timersDue s = .second) ∨
      (s.mstate = .idle ∧ s.cstate ≠ .asleep ∧ timersDue s = .wait) ∨
      (s.mstate = .idle ∧ s.cstate = .asleep ∧ timersDue s = .stopped) := by
  unfold timersDue
  by_cases h1 : s.mstate = .reserved
  · exact .inl ⟨h1, if_pos h1⟩
  rw [if_neg h1]
  by_cases h2 : s.mstate = .idle
  · rw [if_neg (not_not.mpr h2)]
    by_cases h3 : s.cstate = .asleep
    · rw [if_neg (not_not.mpr h3)]
      by_cases h4 : s.stimerArmed = true ∧ 1 ≤ s.cfg.wakeS
      · rw [if_pos h4]
        by_cases h5 : s.stimerRem = 0
        · rw [if_pos h5]; exact .inr (.inr (.inr (.inl ⟨h2, h3, h4.2, h5, rfl⟩)))
        · rw [if_neg h5]; exact .inr (.inr (.inr (.inr (.inl ⟨h2, h3, h4.2, h5, rfl⟩))))
      · rw [if_neg h4]; exact .inr (.inr (.inr (.inr (.inr (.inr ⟨h2, h3, rfl⟩)))))
    · rw [if_pos h3]; exact .inr (.inr (.inr (.inr (.inr (.inl ⟨h2, h3, rfl⟩)))))
  · rw [if_pos h2]
    by_cases h3 : s.mtimer = 0
    · rw [if_pos h3]; exact .inr (.inl ⟨h1, h2, h3, rfl⟩)
    · rw [if_neg h3]; exact .inr (.inr (.inl ⟨h1, h2, h3, rfl⟩))

/-- What is due beyond an event word comes from the timers, or is a unit or symbol, or nothing. -/
theorem due_unitOfTime {s : State} (h : due s = .unitOfTime) : s.mstate ≠ .reserved ∧ s.mstate ≠ .idle := by
  have key : timersDue s = .unitOfTime → s.mstate ≠ .reserved ∧ s.mstate ≠ .idle := by
    intro ht
    rcases timersDue_cases s with ⟨-, e⟩ | ⟨-, -, -, e⟩ | ⟨a, b, -, -⟩ | ⟨-, -, -, -, e⟩ | ⟨-, -, -, -, e⟩ | ⟨-, -, e⟩ | ⟨-, -, e⟩
    all_goals first | exact ⟨a, b⟩ | (rw [e] at ht; cases ht)
  unfold due at h
  split at h
  · cases h
  split at h
  · cases h
  split at h
  · cases h
  split at h
  case h_1 inp _ _ =>
    cases inp with
    | events ws =>
      cases ws with
      | nil => exact key h
      | cons w ws => cases h
    | surplus w => cases h
    | unit u => cases h
    | symbol c => cases h
  case h_2 => exact key h

/-- No instruction is a unit or a symbol and an event at once: the ten units and four symbols. -/
def isUnit : Instr → Bool
  | .reset | .wake | .senseOk _ | .senseFail | .tick | .txDone | .modStart => false
  | .modHdrMarkEnd | .modHdrSpaceEnd | .modBitMarkEnd | .modBitSpaceEnd | .modFtrMarkEnd | .modFtrSpaceEnd => false
  | .rev8 _ | .checksum _ _ _ _ _ | .buildFrame _ | .verifyFrame _ | .clampT _ | .truncC _ => true
  | .trigger _ | .copy _ _ | .pulseTrain _ | .carrier => true
  | .symHdr | .symBit0 | .symBit1 | .symFtr => true

theorem decodeSymbol_isUnit (c : BitVec 2) : isUnit (decodeSymbol c) = true := by
  revert c; decide

theorem legalIf_eq {b : Bool} {i j : Instr} (h : legalIf b i = .legal j) : j = i := by
  cases b with
  | true => exact (Verdict.legal.inj h).symm
  | false => cases h

theorem decodeUnit_isUnit {u : UnitWord} {i : Instr} (h : decodeUnit u = .legal i) : isUnit i = true := by
  unfold decodeUnit at h
  simp only at h
  split at h
  · cases h
  iterate 10
    split at h
    · rw [legalIf_eq h]; rfl
  cases h

/-- Everything a unit or symbol can do: nothing in a faulted block, a fault, or an output. -/
theorem unit_cases {i : Instr} (hu : isUnit i = true) {s t : State} (h : exec i s = .next t) :
    t = s ∨ (s.fault = none ∧ ∃ r, t = { s with fault := some r }) ∨ ∃ o, t = outputUnit o s := by
  have key : ∀ (e : State), (∃ o, e = outputUnit o s) → gate s True e = .next t →
      t = s ∨ (s.fault = none ∧ ∃ r, t = { s with fault := some r }) ∨ ∃ o, t = outputUnit o s := by
    intro e he hg
    rcases gate_cases hg with ⟨-, rfl⟩ | ⟨hf, -, rfl⟩ | ⟨-, -, rfl⟩
    · exact .inl rfl
    · exact .inr (.inl ⟨hf, _, rfl⟩)
    · exact .inr (.inr he)
  cases i
  case buildFrame k =>
    rcases gate_cases h with ⟨-, rfl⟩ | ⟨hf, -, rfl⟩ | ⟨hl, -, rfl⟩
    · exact .inl rfl
    · exact .inr (.inl ⟨hf, _, rfl⟩)
    · unfold buildFrameEffect
      cases buildFrame s.cfg k with
      | none => exact .inr (.inl ⟨hl.1, _, raise_of_none _ _ hl.1⟩)
      | some f => exact .inr (.inr ⟨_, rfl⟩)
  all_goals first | (cases hu; done) | exact key _ ⟨_, rfl⟩ h

/-- A second event only ever faults (R207). -/
theorem surplus_faults (w : EventWord) (s : State) : ∃ r, runDue (.surplus w) s = .next (raise r s) := by
  change ∃ r, carryOut (surplusVerdict w) s = .next (raise r s)
  unfold surplusVerdict
  split
  · exact ⟨_, rfl⟩
  · exact ⟨_, rfl⟩

/-- Everything a step can do. The state it starts from has its stimulus moved on (`arrive s`). -/
theorem step_cases {s t : State} (h : step s = .next t) :
    s.cfg.valid = true ∧
      ((∃ w i, due s = .word w ∧ TakenOn s.cstate s.mstate w i ∧ (s.fault = none ∨ i = .reset) ∧
          exec i (expire i (arrive s)) = .next t) ∨
        (∃ i, isUnit i = true ∧ exec i (arrive s) = .next t) ∨
        (∃ r, t = raise r (arrive s)) ∨
        (s.mstate ≠ .reserved ∧ s.mstate ≠ .idle ∧ t = elapseUnit (arrive s)) ∨
        t = elapseSecond (arrive s) ∨ t = elapseWait (arrive s) ∨ t = arrive s) := by
  unfold step at h
  split at h
  case isFalse => cases h
  case isTrue hv =>
  refine ⟨hv, ?_⟩
  cases hd : due s with
  | word w =>
    rw [hd] at h
    rcases takeWord_cases w (arrive s) with ⟨-, -, e⟩ | ⟨i, hi, e⟩ | ⟨-, e⟩ | ⟨-, e⟩ | ⟨hn, -⟩
    · have := e.symm.trans h; cases this
      exact .inr (.inr (.inr (.inr (.inr (.inr rfl)))))
    · have ht := decodeEvent_legal hi
      by_cases hf : s.fault = none
      · exact .inl ⟨w, i, rfl, ht, .inl hf, e.symm.trans h⟩
      · by_cases hw : w = resetWord
        · subst hw
          have h1 : decodeEvent (arrive s).cstate (arrive s).mstate resetWord = .legal .reset :=
            decodeEvent_of_taken (i := .reset) rfl
          rw [h1] at hi; cases hi
          exact .inl ⟨_, _, rfl, ht, .inr rfl, e.symm.trans h⟩
        · have h2 : takeWord w (arrive s) = .next (arrive s) := by
            unfold takeWord
            exact if_pos ⟨Option.isSome_iff_ne_none.mpr hf, hw⟩
          have := h2.symm.trans h; cases this
          exact .inr (.inr (.inr (.inr (.inr (.inr rfl)))))
    · have := e.symm.trans h; cases this
      exact .inr (.inr (.inl ⟨_, rfl⟩))
    · have := e.symm.trans h; cases this
      exact .inr (.inr (.inl ⟨_, rfl⟩))
    · exact absurd hn (decodeEvent_ne_unassigned _ _ _)
  | unit u =>
    rw [hd] at h
    simp only [runDue] at h
    cases hu : decodeUnit u with
    | legal i =>
      rw [hu] at h
      exact .inr (.inl ⟨i, decodeUnit_isUnit hu, h⟩)
    | reservedEncoding => rw [hu] at h; cases h; exact .inr (.inr (.inl ⟨_, rfl⟩))
    | illegalEvent => rw [hu] at h; cases h; exact .inr (.inr (.inl ⟨_, rfl⟩))
    | unassignedUnit => rw [hu] at h; cases h
  | symbol c =>
    rw [hd] at h
    exact .inr (.inl ⟨_, decodeSymbol_isUnit c, h⟩)
  | surplus w =>
    rw [hd] at h
    obtain ⟨r, e⟩ := surplus_faults w (arrive s)
    have := e.symm.trans h; cases this
    exact .inr (.inr (.inl ⟨r, rfl⟩))
  | badState => rw [hd] at h; cases h; exact .inr (.inr (.inl ⟨_, rfl⟩))
  | unitOfTime =>
    rw [hd] at h; cases h
    exact .inr (.inr (.inr (.inl ⟨(due_unitOfTime hd).1, (due_unitOfTime hd).2, rfl⟩)))
  | second => rw [hd] at h; cases h; exact .inr (.inr (.inr (.inr (.inl rfl))))
  | wait => rw [hd] at h; cases h; exact .inr (.inr (.inr (.inr (.inr (.inl rfl)))))
  | stopped => rw [hd] at h; cases h; exact .inr (.inr (.inr (.inr (.inr (.inr rfl)))))

end Sys2Proof.Machine
end

