-- ==== Sys2Proof/Tests/Slice0.lean ====
section
/-! SUPPORT. Own tests: the well-formedness checks, words written out from the spec's key tables, one-step
vectors of 95_test_vectors.md (cited by table), and states that meet the hypotheses of the statements. -/

namespace Sys2Proof.Tests

open Sys2Proof Sys2Proof.Machine

/-! ### Helpers -/

/-- A view of the next state; none for a fault or a refusal. -/
def view {α : Type} (r : Result) (f : State → α) : Option α :=
  match r with
  | .next t => some (f t)
  | .fault _ => none
  | .refused _ => none

/-- The frame of table B2 for 25 degrees. -/
def golden : Frame := ⟨0xA1#8, 0x82#8, 0x6F#8, 0xFF#8, 0x1A#8, 0xB7#8⟩

/-- Asleep, with 25 degrees reported and CYCLES at c. -/
def asleepAt (c : Nat) : State :=
  { State.reset with
    cstate := .asleep, sreq := false, stimerArmed := true, stimerRem := 600
    reported := true, lastC := 25#32, cycles := c, trace := [] }

/-- Sampling, with the given count and snapshot. -/
def samplingAt (c snap : Nat) : State :=
  { State.reset with reported := true, lastC := 20#32, cycles := c, cycSnap := snap, trace := [] }

/-- Deciding on sample v, with TICK posted. -/
def decidingOn (v : Word32) (rep : Bool) (last : Word32) (c : Nat) : State :=
  { State.reset with
    cstate := .awakeDeciding, sreq := false, pending := some .tick
    sampleMc := v, reported := rep, lastC := last, cycles := c, trace := [] }

/-- Transmitting the golden frame, the modulator in state m of copy c at bit k with u units left. -/
def sendingAt (m : MState) (c : Bool) (k : Fin 48) (u : Nat) : State :=
  { State.reset with
    cstate := .awakeTransmitting, sreq := false, sampleMc := 25000#32, frame := golden
    mstate := m, mcopy := c, mbit := k, mtimer := u, carrierEn := carrierOf m, trace := [] }

/-- The state reset gives, with p as its parameters. -/
def withCfg (p : Params) : State := { State.reset with cfg := p }

/-- Parameters at the edges of their ranges (R7). -/
def edgeParams : Params :=
  { Params.defaults with
    uUs := 1, dutyPct := 99, tempMin := -1, tempMax := 126, cntW := 2, wakeS := 0, failUndoInc := true
    zeroSpace := 1, oneSpace := 2 }

/-! ### Well-formedness: each check refuses an ill-formed operand -/

theorem test_wf_buildFrame_high : (Instr.buildFrame (2 ^ 31)).wf = false := by decide
theorem test_wf_buildFrame_low : (Instr.buildFrame (-(2 ^ 31) - 1)).wf = false := by decide
theorem test_wf_clampT_high : (Instr.clampT (2 ^ 31)).wf = false := by decide
theorem test_wf_clampT_low : (Instr.clampT (-(2 ^ 31) - 1)).wf = false := by decide
theorem test_wf_trigger_high : (Instr.trigger (2 ^ 31)).wf = false := by decide
theorem test_wf_trigger_low : (Instr.trigger (-(2 ^ 31) - 1)).wf = false := by decide

/-! ### Decoding: words from the tables of R83, R84, R89, R78 -/

theorem test_decode_keys :
    decode (.ctl 0x00100000000#42) = .legal .reset ∧ decode (.ctl 0x30100000000#42) = .legal .reset ∧
    decode (.mod 0x60100000000#43) = .legal .reset ∧
    decode (.ctl 0x30200000000#42) = .legal .wake ∧
    decode (.ctl 0x003000061A8#42) = .legal (.senseOk 25000#32) ∧
    decode (.ctl 0x003FFFFFA24#42) = .legal (.senseOk (BitVec.ofInt 32 (-1500))) ∧
    decode (.ctl 0x00400000000#42) = .legal .senseFail ∧
    decode (.ctl 0x10500000000#42) = .legal .tick ∧
    decode (.ctl 0x20600000000#42) = .legal .txDone ∧
    decode (.mod 0x01000000000#43) = .legal .modStart ∧
    decode (.mod 0x11100000000#43) = .legal .modHdrMarkEnd ∧
    decode (.mod 0x21100000000#43) = .legal .modHdrSpaceEnd ∧
    decode (.mod 0x31100000000#43) = .legal .modBitMarkEnd ∧
    decode (.mod 0x41100000000#43) = .legal .modBitSpaceEnd ∧
    decode (.mod 0x51100000000#43) = .legal .modFtrMarkEnd ∧
    decode (.mod 0x61100000000#43) = .legal .modFtrSpaceEnd := by decide

/-- The selects of R89, in the unit word of log entry 6. -/
theorem test_decode_units :
    decode (.unit 0x000000000000A101#64) = .legal (.rev8 0xA1#8) ∧
    decode (.unit 0x00001AFF6F82A102#64) = .legal (.checksum 0xA1#8 0x82#8 0x6F#8 0xFF#8 0x1A#8) ∧
    decode (.unit 0x0000000000001903#64) = .legal (.buildFrame 25) ∧
    decode (.unit 0x00B71AFF6F82A104#64) = .legal (.verifyFrame golden) ∧
    decode (.unit 0x000000FFFFFFFB05#64) = .legal (.clampT (-5)) ∧
    decode (.unit 0x0000000000514006#64) = .legal (.truncC 20800#32) ∧
    decode (.unit 0x0000000000001507#64) = .legal (.trigger 21) ∧
    decode (.unit 0x01B71AFF6F82A108#64) = .legal (.copy golden true) ∧
    decode (.unit 0x00B71AFF6F82A109#64) = .legal (.pulseTrain golden) ∧
    decode (.unit 0x000000000000000A#64) = .legal .carrier ∧
    decode (.unit 0x0000000000000000#64) = .unassignedUnit ∧
    decode (.unit 0x000000000000000B#64) = .unassignedUnit ∧
    decode (.unit 0x000000000001A101#64) = .unassignedUnit ∧
    decode (.sym 0b00#2) = .legal .symHdr ∧ decode (.sym 0b01#2) = .legal .symBit0 ∧
    decode (.sym 0b10#2) = .legal .symBit1 ∧ decode (.sym 0b11#2) = .legal .symFtr := by decide

/-- Table B10. -/
theorem test_decode_verdicts :
    decodeEvent .asleep .idle 0x0200000000#40 = .legal .wake ∧
    decodeEvent .awakeSampling .idle 0x0200000000#40 = .illegalEvent ∧
    decodeEvent .awakeSampling .idle 0x0380000000#40 = .legal (.senseOk 0x80000000#32) ∧
    decodeEvent .asleep .idle 0x03000061A8#40 = .illegalEvent ∧
    decodeEvent .asleep .idle 0x0200000001#40 = .reservedEncoding ∧
    decodeEvent .asleep .idle 0x0000000000#40 = .reservedEncoding ∧
    decodeEvent .asleep .idle 0x0700000000#40 = .reservedEncoding ∧
    decodeEvent .asleep .idle 0x1200000000#40 = .reservedEncoding ∧
    decodeEvent .awakeTransmitting .bitMark 0x0100000000#40 = .legal .reset ∧
    decodeEvent .awakeTransmitting .bitMark 0x0100000005#40 = .reservedEncoding ∧
    decodeEvent .awakeTransmitting .hdrMark 0x1100000000#40 = .legal .modHdrMarkEnd ∧
    decodeEvent .awakeTransmitting .idle 0x1100000000#40 = .illegalEvent := by decide

/-- Words numbered as the opcode table numbers them; in one byte 1 to 3 are units (log entry 7). -/
theorem test_decode_table_words :
    decodeTableWord 48 0x30200000000 = some .wake ∧
    decodeTableWord 48 0x61100000000 = some .modFtrSpaceEnd ∧
    decodeTableWord 48 0x00700000000 = none ∧
    decodeTableWord 8 0x1 = some (.rev8 0#8) ∧ decodeTableWord 8 0xA = some .carrier ∧
    decodeTableWord 8 0xB = none ∧ decodeTableWord 8 0 = some .symHdr ∧
    decodeTableWord 2 2 = some .symBit1 ∧ decodeTableWord 2 3 = some .symFtr := by decide

/-- A placed word is the very next step, from reset. -/
theorem test_placed_word_runs :
    view (step (State.reset.withFetchWord 48 0x30200000000)) (fun t => (t.cycles, t.cstate, t.inbox)) =
      some (1, .awakeSampling, []) ∧
    view (step (State.reset.withFetchWord 48 0x51100000000)) (fun t => t.mstate) = some .ftrSpace ∧
    view (step (State.reset.withFetchWord 8 1)) (fun t => t.unitOut) = some (.byte 0#8) := by decide

/-! ### One step per instruction (tables B1 to B9, B11) -/

theorem test_reset : view (exec .reset (sendingAt .bitSpace true 3 21))
    (fun t => (t.cstate, t.mstate, t.carrierEn, t.sreq, t.reported, t.trace, t.cycles, t.pending)) =
    some (.awakeSampling, .idle, false, true, false, [.sensorReq], 0, none) := rfl
theorem test_reset_clears_a_fault :
    view (exec .reset (raise .illegalEvent State.reset)) (fun t => t.fault) = some none := by decide
theorem test_wake_wraps : view (exec .wake (asleepAt 4294967295))
    (fun t => (t.cstate, t.cycles, t.cycSnap, t.stimerArmed, t.sreq, t.trace)) =
    some (.awakeSampling, 0, 4294967295, false, true, [.sensorReq]) := rfl
theorem test_wake_illegal :
    view (exec .wake State.reset) id = some { State.reset with fault := some .illegalEvent } := by decide
theorem test_senseOk : view (exec (.senseOk 20800#32) (samplingAt 0 0))
    (fun t => (t.cstate, t.sampleMc, t.sreq, t.pending, t.trace)) =
    some (.awakeDeciding, 20800#32, false, some .tick, []) := by decide
theorem test_senseFail : view (exec .senseFail (samplingAt 1 0))
    (fun t => (t.cstate, t.cycles, t.sreq, t.stimerRem, t.trace)) =
    some (.asleep, 1, false, 600, [.sleep 600]) := by decide
theorem test_senseFail_undo :
    view (exec .senseFail { samplingAt 1 0 with cfg := edgeParams }) (fun t => (t.cycles, t.trace)) =
    some (0, [.sleep 0]) := by decide
theorem test_tick_transmits : view (exec .tick (decidingOn 25000#32 false 0#32 0))
    (fun t => (t.cstate, t.frame, t.pending, t.trace)) =
    some (.awakeTransmitting, golden, some .modStart, []) := by decide
theorem test_tick_sleeps : view (exec .tick (decidingOn 20800#32 true 20#32 1))
    (fun t => (t.cstate, t.pending, t.trace)) = some (.asleep, none, [.sleep 600]) := by decide
theorem test_txDone : view (exec .txDone { sendingAt .idle false 0 0 with sampleMc := 35000#32, cycles := 2 })
    (fun t => (t.cstate, t.lastC, t.reported, t.cycles, t.trace)) =
    some (.asleep, 35#32, true, 0, [.sleep 600]) := by decide
theorem test_modStart : view (exec .modStart { sendingAt .idle false 0 0 with pending := some .modStart })
    (fun t => (t.mstate, t.mcopy, t.mbit, t.mtimer, t.carrierEn, t.pending, t.trace)) =
    some (.hdrMark, false, 0, 56, true, none, [.tx golden, .pulse ⟨.mark, 56⟩]) := rfl
theorem test_modHdrMarkEnd : view (exec .modHdrMarkEnd (sendingAt .hdrMark true 0 0))
    (fun t => (t.mstate, t.mcopy, t.mtimer, t.carrierEn, t.trace)) =
    some (.hdrSpace, true, 56, false, [.pulse ⟨.space, 56⟩]) := by decide
theorem test_modHdrSpaceEnd : view (exec .modHdrSpaceEnd (sendingAt .hdrSpace false 0 0))
    (fun t => (t.mstate, t.mbit, t.carrierEn, t.trace)) =
    some (.bitMark, 0, true, [.pulse ⟨.mark, 7⟩]) := by decide
theorem test_modBitMarkEnd_first : view (exec .modBitMarkEnd (sendingAt .bitMark false 0 0))
    (fun t => (t.mstate, t.carrierEn, t.trace)) = some (.bitSpace, false, [.pulse ⟨.space, 21⟩]) := by decide
theorem test_modBitMarkEnd_inverted : view (exec .modBitMarkEnd (sendingAt .bitMark true 0 0))
    (fun t => (t.mstate, t.mtimer, t.trace)) = some (.bitSpace, 7, [.pulse ⟨.space, 7⟩]) := by decide
theorem test_modBitSpaceEnd_next : view (exec .modBitSpaceEnd (sendingAt .bitSpace false 5 0))
    (fun t => (t.mstate, t.mbit, t.trace)) = some (.bitMark, 6, [.pulse ⟨.mark, 7⟩]) := by decide
theorem test_modBitSpaceEnd_last : view (exec .modBitSpaceEnd (sendingAt .bitSpace true 47 0))
    (fun t => (t.mstate, t.mbit, t.mcopy, t.trace)) = some (.ftrMark, 47, true, [.pulse ⟨.mark, 7⟩]) := by
  decide
theorem test_modFtrMarkEnd : view (exec .modFtrMarkEnd (sendingAt .ftrMark false 47 0))
    (fun t => (t.mstate, t.carrierEn, t.trace)) = some (.ftrSpace, false, [.pulse ⟨.space, 70⟩]) := by decide
theorem test_modFtrSpaceEnd_repeats : view (exec .modFtrSpaceEnd (sendingAt .ftrSpace false 47 0))
    (fun t => (t.mstate, t.mcopy, t.mbit, t.pending, t.trace)) =
    some (.hdrMark, true, 0, none, [.pulse ⟨.mark, 56⟩]) := by decide
theorem test_modFtrSpaceEnd_stops : view (exec .modFtrSpaceEnd (sendingAt .ftrSpace true 47 0))
    (fun t => (t.mstate, t.mcopy, t.mbit, t.pending, t.carrierEn, t.trace)) =
    some (.idle, false, 0, some .txDone, false, []) := rfl
theorem test_rev8 : [0x00#8, 0x01#8, 0x0F#8, 0x12#8, 0x3C#8, 0xA1#8, 0x6F#8, 0xB7#8].map rev8 =
    [0x00#8, 0x80#8, 0xF0#8, 0x48#8, 0x3C#8, 0x85#8, 0xF6#8, 0xED#8] := by decide
theorem test_checksum : view (exec (.checksum 0xA1#8 0x82#8 0x6F#8 0xFF#8 0x1A#8) State.reset)
    (fun t => t.unitOut) = some (.byte 0xB7#8) := by decide
theorem test_checksum_table :
    checksum 0xA1#8 0x82#8 0x6F#8 0xFF#8 0xFF#8 = 0x62#8 ∧ checksum 0#8 0#8 0#8 0#8 0#8 = 0#8 ∧
    checksum 0xFF#8 0xFF#8 0xFF#8 0xFF#8 0xFF#8 = 0xA0#8 ∧ checksum 0x80#8 0#8 0#8 0#8 0#8 = 0xFF#8 ∧
    checksum 0#8 0#8 0#8 0#8 0x01#8 = 0x01#8 := by decide
theorem test_buildFrame : view (exec (.buildFrame 25) State.reset) (fun t => t.unitOut) =
    some (.frame golden) := by decide
theorem test_buildFrame_contract : view (exec (.buildFrame 31) State.reset) id =
    some { State.reset with fault := some .contractViolation } := by decide
theorem test_verifyFrame : verifyFrame golden = true ∧ verifyFrame { golden with b4 := 0x1B#8 } = false ∧
    verifyFrame ⟨0x5E#8, 0x7D#8, 0x90#8, 0x00#8, 0xE5#8, 0x48#8⟩ = false := by decide
theorem test_clampT : [-5, -1, 0, 25, 30, 31, 35, 2147483].map (clampT Params.defaults) =
    [0, 0, 0, 25, 30, 30, 30, 30] := by decide
theorem test_truncC : [0x00005140#32, 0x00005207#32, 0x00005208#32, 0xFFFFFFFF#32, 0xFFFFFC19#32, 0xFFFFFC18#32,
    0xFFFFFA24#32, 0x7FFFFFFF#32, 0x80000000#32].map truncC =
    [20, 20, 21, 0, 0, -1, -1, 2147483, -2147483] := by decide
theorem test_trigger : view (exec (.trigger 20) (decidingOn 0#32 true 20#32 1)) (fun t => t.unitOut) =
    some (.flag false) ∧ view (exec (.trigger 19) (decidingOn 0#32 true 20#32 1)) (fun t => t.unitOut) =
    some (.flag true) := by decide
theorem test_trigger_table : trigger (decidingOn 0#32 false 0#32 0) 0 = true ∧
    trigger (decidingOn 0#32 true 25#32 1) 25 = false ∧ trigger (decidingOn 0#32 true 25#32 2) 25 = true ∧
    trigger (decidingOn 0#32 true (BitVec.ofInt 32 (-2147483)) 0) 2147483 = true := by decide
theorem test_copy : ((List.finRange 48).map (sentBit golden false)).take 16 =
    [true, false, true, false, false, false, false, true, true, false, false, false, false, false, true, false] := by
  decide
theorem test_pulseTrain_ends : (pulseTrain Params.defaults golden).take 8 =
    [⟨.mark, 56⟩, ⟨.space, 56⟩, ⟨.mark, 7⟩, ⟨.space, 21⟩, ⟨.mark, 7⟩, ⟨.space, 7⟩, ⟨.mark, 7⟩, ⟨.space, 21⟩] ∧
    (pulseTrain Params.defaults golden).drop 196 = [⟨.mark, 7⟩, ⟨.space, 7⟩, ⟨.mark, 7⟩, ⟨.space, 70⟩] := by decide
theorem test_pulseTrain_middle : ((pulseTrain Params.defaults golden).drop 96).take 8 =
    [⟨.mark, 7⟩, ⟨.space, 21⟩, ⟨.mark, 7⟩, ⟨.space, 70⟩, ⟨.mark, 56⟩, ⟨.space, 56⟩, ⟨.mark, 7⟩, ⟨.space, 7⟩] ∧
    trainUnits (pulseTrain Params.defaults golden) = 2394 := by decide +kernel
theorem test_carrier : [(0 : Rat), 13, 250 / 19, 14, 500 / 19, 559].map (carrierHigh Params.defaults) =
    [true, true, false, false, true, true] := by decide +kernel
theorem test_carrier_off : view (exec .carrier State.reset) (fun t => t.unitOut) = some (.flag false) := by decide
theorem test_symbols : view (exec .symHdr State.reset) (fun t => t.unitOut) =
    some (.pulses [⟨.mark, 56⟩, ⟨.space, 56⟩]) ∧
    view (exec .symFtr State.reset) (fun t => t.unitOut) = some (.pulses [⟨.mark, 7⟩, ⟨.space, 70⟩]) := by decide
theorem test_symbol_bits : view (exec .symBit0 State.reset) (fun t => t.unitOut) =
    some (.pulses [⟨.mark, 7⟩, ⟨.space, 7⟩]) ∧
    view (exec .symBit1 State.reset) (fun t => t.unitOut) = some (.pulses [⟨.mark, 7⟩, ⟨.space, 21⟩]) := by decide

/-- R207: SENSE_FAIL leads to ASLEEP, and the WAKE that came with it faults there. -/
theorem test_second_event_faults :
    view (runSteps 2 { samplingAt 1 0 with inbox := [.events [senseFailWord, wakeWord]] })
      (fun t => (t.cstate, t.fault, t.cycles, t.trace)) =
      some (.asleep, some .illegalEvent, 1, [.sleep 600]) := by decide

/-- R207: the second of two answers faults before TICK is taken. -/
theorem test_second_answer_faults :
    view (runSteps 2 { samplingAt 1 0 with inbox := [.events [senseOkWord 20800#32, senseFailWord]] })
      (fun t => (t.cstate, t.fault, t.pending)) =
      some (.awakeDeciding, some .illegalEvent, some .tick) := by decide

/-- The phase goes on through a space (R179) and survives the sleep (R210). -/
theorem test_phase_in_a_space_and_asleep :
    view (step { sendingAt .hdrSpace false 0 56 with cphase := 4480 }) (fun t => t.cphase) = some 4560 ∧
    view (step { asleepAt 0 with cphase := 6160 }) (fun t => t.cphase) = some 6160 := by decide +kernel

/-! ### Witnesses: for each statement with hypotheses, states and operands that meet them, clause by clause -/

/-- The stimulus of s. -/
def fed (s : State) (ins : List Input) : State := { s with inbox := ins }

/-- s in the fault state. -/
def faulted (s : State) : State := { s with fault := some .reservedEncoding }

theorem witness_DecodeOfEncodeIsTheInstruction :
    (Instr.buildFrame (-(2 ^ 31))).wf = true ∧ (Instr.trigger (2 ^ 31 - 1)).wf = true ∧
    (Instr.clampT (-1)).wf = true ∧ (Instr.copy golden true).wf = true := by decide

theorem witness_EventWordVerdicts :
    0x12#8 ∉ [0x01#8, 0x02#8, 0x03#8, 0x04#8, 0x05#8, 0x06#8, 0x10#8, 0x11#8] ∧
    (0x02#8 ≠ 0x03#8 ∧ 1#32 ≠ 0#32) ∧
    0x11#8 ∈ [0x02#8, 0x03#8, 0x04#8, 0x05#8, 0x06#8, 0x10#8, 0x11#8] ∧ MState.ftrSpace ≠ .reserved := by decide

theorem witness_StepRunsTheDecodedInstruction :
    (let s := fed (asleepAt 0) [.events [wakeWord]]
     s.cfg.valid = true ∧ s.fault = none ∧ s.pending = none ∧ s.inbox = [.events (wakeWord :: [])] ∧
      resetWord ∉ [wakeWord] ∧
      decodeEvent s.cstate s.mstate wakeWord = .legal .wake) ∧
    (let s := fed (sendingAt .bitSpace true 47 3) [.events [pulseEndWord, tickWord], .events []]
     s.cfg.valid = true ∧ s.fault = none ∧ s.pending = none ∧
      s.inbox = .events (pulseEndWord :: [tickWord]) :: [.events []] ∧ resetWord ∉ [pulseEndWord, tickWord] ∧
      decodeEvent s.cstate s.mstate pulseEndWord = .legal .modBitSpaceEnd) ∧
    (let s := fed State.reset [.unit 0xA101#64]
     s.cfg.valid = true ∧ s.fault = none ∧ s.pending = none ∧ s.inbox = [.unit 0xA101#64] ∧
      decodeUnit 0xA101#64 = .legal (.rev8 0xA1#8)) ∧
    (let s := fed State.reset [.symbol 3#2]
     s.cfg.valid = true ∧ s.fault = none ∧ s.pending = none ∧ s.inbox = [.symbol 3#2]) := by decide

theorem witness_PostedEventIsTheNextStep :
    let s := fed (decidingOn 25000#32 false 0#32 0) [.events [wakeWord]]
    s.cfg.valid = true ∧ s.fault = none ∧ s.pending = some .tick ∧ s.inbox.head?.any bringsReset = false ∧
    s.inbox.head?.any isSurplus = false := by decide

/-- A second word that the state after the first would take, and a reserved one. -/
theorem witness_SecondEventFaults :
    (let s := fed (samplingAt 1 0) [.events [senseFailWord, wakeWord]]
     s.cfg.valid = true ∧ s.fault = none ∧ s.pending = none ∧
      s.inbox = .events (senseFailWord :: wakeWord :: []) :: [] ∧ resetWord ∉ [senseFailWord, wakeWord]) ∧
    (let s := fed (samplingAt 1 0) [.events [wakeWord, 0x0700000000#40, wakeWord]]
     s.cfg.valid = true ∧ s.fault = none ∧ s.pending = none ∧
      s.inbox = .events (wakeWord :: 0x0700000000#40 :: [wakeWord]) :: [] ∧
      resetWord ∉ [wakeWord, 0x0700000000#40, wakeWord]) := by decide

theorem witness_ResetIsTakenFirst :
    let s := faulted (fed (asleepAt 0) [.events [wakeWord, resetWord]])
    s.cfg.valid = true ∧ s.inbox = [.events [wakeWord, resetWord]] ∧ resetWord ∈ [wakeWord, resetWord] := by
  decide

theorem witness_FaultedBlockTakesOnlyReset :
    State.reset.fault = none ∧
    (let s := faulted (fed (asleepAt 0) [.events [wakeWord]])
     s.fault ≠ none ∧ Instr.wake ≠ .reset ∧ wakeWord ≠ resetWord ∧ s.cfg.valid = true ∧
      s.inbox.head?.any bringsReset = false) := by decide

theorem witness_InvalidParametersAreRefused :
    edgeParams.valid = true ∧ (withCfg { edgeParams with tempMax := 127 }).cfg.valid = false ∧
    (withCfg { edgeParams with oneSpace := 1 }).cfg.valid = false ∧
    (withCfg { edgeParams with dutyPct := 100 }).cfg.valid = false := by decide

theorem witness_ReservedWordsFault : State.reset.fault = none ∧ (0x00#8).toNat = 0 ∧
    (7 ≤ (0x07#8).toNat ∧ (0x0F#8).toNat ≤ 0x0F) ∧ (0x12 ≤ (0x12#8).toNat ∧ 0x12 ≤ (0xFF#8).toNat) ∧
    (0x01#8 ≠ 0x03#8 ∧ 1#32 ≠ 0#32) := by decide

theorem witness_UnacceptedEventsFault :
    (State.reset.fault = none ∧ State.reset.cstate ≠ .asleep ∧ State.reset.cstate ≠ .awakeDeciding ∧
      State.reset.cstate ≠ .awakeTransmitting ∧ State.reset.mstate = .idle) ∧
    ((asleepAt 0).fault = none ∧ (asleepAt 0).cstate ≠ .awakeSampling) ∧
    ((sendingAt .bitMark false 0 7).fault = none ∧ (sendingAt .bitMark false 0 7).mstate ≠ .idle) ∧
    (let s : State := { State.reset with mstate := .reserved }
     s.fault = none ∧ wakeWord ≠ resetWord ∧ isReservedWord wakeWord = false ∧ s.cfg.valid = true ∧
      s.pending = none ∧ s.inbox = []) := by decide

theorem witness_WakeCountsAndSamples :
    (Live (asleepAt 4294967295) ∧ (asleepAt 4294967295).cstate = .asleep) ∧
    (Live State.reset ∧ State.reset.cstate ≠ .asleep) := by unfold Live; decide

theorem witness_SenseOkHoldsTheSample :
    (Live (samplingAt 1 0) ∧ (samplingAt 1 0).cstate = .awakeSampling) ∧
    (Live (asleepAt 0) ∧ (asleepAt 0).cstate ≠ .awakeSampling) := by unfold Live; decide

theorem witness_SenseFailSleeps :
    (Live { samplingAt 1 0 with cfg := edgeParams } ∧
      ({ samplingAt 1 0 with cfg := edgeParams } : State).cfg.failUndoInc = true ∧
      ({ samplingAt 1 0 with cfg := edgeParams } : State).cstate = .awakeSampling) ∧
    (Live (samplingAt 1 0) ∧ (samplingAt 1 0).cfg.failUndoInc = false) ∧
    (Live (asleepAt 0) ∧ (asleepAt 0).cstate ≠ .awakeSampling) := by unfold Live; decide

/-- One state for each of the three disjuncts of the trigger at its boundary, and one for neither. -/
theorem witness_TickDecides :
    (let s := decidingOn 25000#32 false 25#32 0
     Live s ∧ s.cfg.valid = true ∧ s.cstate = .awakeDeciding ∧ s.reported = false) ∧
    (let s := decidingOn 21000#32 true 20#32 0
     Live s ∧ s.cstate = .awakeDeciding ∧
      (s.cfg.delta : Int) ≤ |Int.tdiv s.sampleMc.toInt 1000 - s.lastC.toInt|) ∧
    (let s := decidingOn 20800#32 true 20#32 2
     Live s ∧ s.cstate = .awakeDeciding ∧ s.cfg.ratio = s.cycles) ∧
    (let s := decidingOn 20800#32 true 20#32 1
     Live s ∧ s.cfg.valid = true ∧ s.cstate = .awakeDeciding ∧ s.reported = true ∧
      ¬ (s.reported = false ∨ (s.cfg.delta : Int) ≤ |Int.tdiv s.sampleMc.toInt 1000 - s.lastC.toInt| ∨
        s.cfg.ratio ≤ s.cycles)) ∧
    State.reset.cstate ≠ .awakeDeciding := by unfold Live; decide

theorem witness_TxDoneRecordsTheReport :
    (Live (sendingAt .idle false 0 0) ∧ (sendingAt .idle false 0 0).cstate = .awakeTransmitting) ∧
    (Live (asleepAt 0) ∧ (asleepAt 0).cstate ≠ .awakeTransmitting) := by unfold Live; decide

theorem witness_ModStartBeginsTheTrain :
    (Live (sendingAt .idle false 0 0) ∧ (sendingAt .idle false 0 0).mstate = .idle) ∧
    (Live (sendingAt .bitMark false 0 7) ∧ (sendingAt .bitMark false 0 7).mstate ≠ .idle) := by
  unfold Live; decide

theorem witness_HeaderPulsesFollow :
    ((sendingAt .hdrMark true 0 0).fault = none ∧ (sendingAt .hdrMark true 0 0).mstate = .hdrMark) ∧
    ((sendingAt .hdrSpace false 0 0).fault = none ∧ (sendingAt .hdrSpace false 0 0).mstate = .hdrSpace) := by
  decide

theorem witness_BitMarkEndSendsTheBit :
    ((sendingAt .bitMark false 47 0).fault = none ∧ (sendingAt .bitMark false 47 0).mstate = .bitMark) ∧
    ((sendingAt .bitMark true 0 0).fault = none ∧ (sendingAt .bitMark true 0 0).mstate = .bitMark) := by decide

theorem witness_BitSpaceEndAdvances :
    (let s := sendingAt .bitSpace false 46 0
     s.fault = none ∧ s.mstate = .bitSpace ∧ s.mbit.val < 47) ∧
    (let s := sendingAt .bitSpace true 47 0
     s.fault = none ∧ s.mstate = .bitSpace ∧ s.mbit.val = 47) := by decide

theorem witness_FooterMarkEndSpaces :
    (sendingAt .ftrMark false 47 0).fault = none ∧ (sendingAt .ftrMark false 47 0).mstate = .ftrMark := by decide

theorem witness_FooterSpaceEndRepeatsOrStops :
    (let s := sendingAt .ftrSpace false 47 0
     s.fault = none ∧ s.mstate = .ftrSpace ∧ s.mcopy = false) ∧
    (let s := sendingAt .ftrSpace true 47 0
     s.fault = none ∧ s.mstate = .ftrSpace ∧ s.mcopy = true) := by decide

/-- For the statements on the units and symbols, whose hypotheses are a live state and a valid set (Rev8Reverses,
ChecksumIsTheNegatedReversedSum, ClampKeepsTheRange, TruncationIsTowardZero, TriggerRule, CarrierWaveform,
SymbolsAreMarkThenSpace, and the first clauses of those on frames and trains). -/
theorem witness_LiveUnits : Live State.reset ∧ State.reset.cfg.valid = true ∧
    Live (sendingAt .bitMark false 5 7) ∧ Live (withCfg edgeParams) ∧ (withCfg edgeParams).cfg.valid = true := by
  unfold Live; decide

theorem witness_VerifyDetectsEverySingleBitError :
    verifyFrame golden = true ∧
    (47 < 48 ∧ frameWord golden ^^^ frameWord { golden with b0 := 0x21#8 } = 1#48 <<< 47) ∧
    (0 < 48 ∧ frameWord golden ^^^ frameWord { golden with b5 := 0xB6#8 } = 1#48 <<< 0) := by decide

theorem witness_InvertedCopyIsNeverValid : verifyFrame golden = true := by decide

theorem witness_BuildFrameKeepsItsContract :
    (Live State.reset ∧ State.reset.cfg.tempMin ≤ 0 ∧ 30 ≤ State.reset.cfg.tempMax) ∧
    ¬ (State.reset.cfg.tempMin ≤ 31 ∧ 31 ≤ State.reset.cfg.tempMax) ∧
    ¬ (State.reset.cfg.tempMin ≤ -1 ∧ -1 ≤ State.reset.cfg.tempMax) := by unfold Live; decide

theorem witness_EncoderLaws : edgeParams.valid = true ∧ edgeParams.tempMin ≤ -1 ∧ 126 ≤ edgeParams.tempMax := by
  decide

theorem witness_ClampKeepsTheRange :
    (-1 < State.reset.cfg.tempMin ∧ State.reset.cfg.tempMax < 31) ∧
    (State.reset.cfg.tempMin ≤ 0 ∧ 0 ≤ State.reset.cfg.tempMax) ∧
    (State.reset.cfg.tempMin ≤ 30 ∧ 30 ≤ State.reset.cfg.tempMax) := by decide

theorem witness_PulseTrainStructure : (pulseTrain Params.defaults golden)[199]? = some ⟨.space, 70⟩ := by
  decide +kernel

theorem witness_TrainDuration : 28 = (List.finRange 48).countP (fun k => frameBit golden k) := by decide

theorem witness_SecondHalfIsInverted : Params.defaults.zeroSpace < Params.defaults.oneSpace ∧
    edgeParams.zeroSpace < edgeParams.oneSpace ∧ (98 < 100 ∧ 98 % 2 = 0) := by decide

/-- At the start of a period and at its middle, the boundary of the default duty. -/
theorem witness_CarrierWaveform :
    ((0 : Rat) ≤ 0 * Params.defaults.carrierHz - 1000000 * (0 : Int) ∧
      0 * Params.defaults.carrierHz - 1000000 * (0 : Int) < (1000000 : Rat)) ∧
    ((0 : Rat) ≤ 750 / 19 * Params.defaults.carrierHz - 1000000 * (1 : Int) ∧
      750 / 19 * Params.defaults.carrierHz - 1000000 * (1 : Int) < (1000000 : Rat)) := by
  norm_num [Params.defaults]

/-- The last unit of a space, and of a mark; and a step that restarts the phase. -/
theorem witness_CarrierPhaseFollowsTime :
    (let s := sendingAt .bitSpace true 46 1
     s.cfg.valid = true ∧ s.fault = none ∧ s.pending = none ∧ s.inbox = [] ∧ s.mstate ≠ .idle ∧
      s.mstate ≠ .reserved ∧ 1 ≤ s.mtimer) ∧
    (let s := sendingAt .hdrMark false 0 56
     s.cfg.valid = true ∧ s.fault = none ∧ s.pending = none ∧ s.inbox = [] ∧ s.mstate ≠ .idle ∧
      s.mstate ≠ .reserved ∧ 1 ≤ s.mtimer) ∧
    view (exec .modHdrSpaceEnd { sendingAt .hdrSpace false 0 0 with cphase := 8960 }) (fun t => t.cphase) =
      some 0 := by decide

theorem coreInv_reset : CoreInv State.reset := ⟨by decide, rfl, by decide, by decide, le_refl _⟩

theorem loopInv_sending : LoopInv (sendingAt .bitSpace true 46 7) where
  sreq := rfl
  armed := rfl
  rem := by decide
  tick := by decide
  busy := by decide
  turn := by decide
  posted := by decide
  frame := fun _ => by decide
  rest := by decide
  header := by decide
  footer := by decide
  timer := by decide

theorem witness_EveryStepKeepsCoreInv : CoreInv State.reset ∧ step State.reset = .next (elapseWait State.reset) :=
  ⟨coreInv_reset, rfl⟩

theorem witness_ResetMeetsCoreInv : exec .reset State.reset = .next (sampleEntry (resetLoads State.reset)) := rfl

theorem witness_EveryStepKeepsLoopInv :
    LoopInv (sendingAt .bitSpace true 46 7) ∧ EnvLawful (sendingAt .bitSpace true 46 7) ∧
    step (sendingAt .bitSpace true 46 7) = .next (elapseUnit (sendingAt .bitSpace true 46 7)) :=
  ⟨loopInv_sending, ⟨by decide, by decide⟩, rfl⟩

theorem witness_ModulatorEmitsThePulseTrain :
    (sendingAt .idle false 0 0).fault = none ∧ (sendingAt .idle false 0 0).mstate = .idle ∧ 199 ≤ 199 := by decide

theorem witness_TransmissionRunsByItself :
    let s : State := { sendingAt .idle false 0 0 with pending := some .modStart }
    s.cfg.valid = true ∧ s.fault = none ∧ s.mstate = .idle ∧ s.pending = some .modStart ∧ s.inbox = [] := by decide

theorem witness_BlockNeverFaultsByItself :
    let s := sendingAt .bitSpace true 46 7
    s.cfg.valid = true ∧ CoreInv s ∧ LoopInv s ∧ s.fault = none ∧ s.inbox = [] :=
  ⟨by decide, ⟨by decide, rfl, by decide, by decide, le_refl _⟩, loopInv_sending, rfl, rfl⟩

theorem witness_StepKeepsParametersAndTrace : step State.reset = .next (elapseWait State.reset) := rfl

theorem witness_FrameIsFixedWhileTransmitting :
    let s := sendingAt .bitSpace true 46 7
    (Instr.txDone ≠ .tick ∧ Instr.txDone ≠ .reset ∧ ∃ t, exec .txDone s = .next t) ∧
    LoopInv s ∧ s.cstate = .awakeTransmitting ∧ due s ≠ .word resetWord ∧ step s = .next (elapseUnit s) :=
  ⟨⟨by decide, by decide, _, rfl⟩, loopInv_sending, rfl, by decide, rfl⟩

theorem witness_TransmissionCannotBeCancelled :
    let s := sendingAt .bitSpace true 46 7
    LoopInv s ∧ s.mstate ≠ .idle ∧ wakeWord ≠ resetWord ∧ wakeWord ≠ pulseEndWord ∧ wakeWord ≠ txDoneWord ∧
    takeWord wakeWord s = .next { s with fault := some .illegalEvent } :=
  ⟨loopInv_sending, by decide, by decide, by decide, by decide, rfl⟩

theorem witness_ResetCutsTheTrain : (sendingAt .hdrMark true 0 56).mstate ≠ .idle := by decide

theorem witness_RegistersHaveTheirWriters :
    (∃ t, exec .txDone (sendingAt .idle false 0 0) = .next t) ∧ Instr.txDone ≠ .reset ∧
    (∃ t, exec .modHdrMarkEnd (sendingAt .hdrMark false 0 0) = .next t) ∧ Instr.modHdrMarkEnd ≠ .reset :=
  ⟨⟨_, rfl⟩, by decide, ⟨_, rfl⟩, by decide⟩

theorem witness_SleepTimerWakesTheBlock :
    (let s := asleepAt 1
     s.cfg.valid = true ∧ s.fault = none ∧ s.mstate = .idle ∧ s.cstate = .asleep ∧ s.stimerArmed = true ∧
      s.pending = none ∧ s.inbox = [] ∧ 1 ≤ s.cfg.wakeS) ∧
    (let s : State := { asleepAt 1 with cfg := edgeParams, stimerRem := 0 }
     s.cfg.valid = true ∧ s.fault = none ∧ s.mstate = .idle ∧ s.cstate = .asleep ∧ s.stimerArmed = true ∧
      s.pending = none ∧ s.inbox = [] ∧ s.cfg.wakeS = 0) := by decide

theorem witness_FirstSampleTransmits : Live State.reset ∧ State.reset.cfg.valid = true ∧
    State.reset.cstate = .awakeSampling ∧ State.reset.reported = false := by unfold Live; decide

theorem witness_HysteresisComparesWholeDegrees :
    let s := samplingAt 1 0
    Live s ∧ s.cfg.valid = true ∧ s.cstate = .awakeSampling ∧ s.reported = true ∧ s.cycles < s.cfg.ratio ∧
    Int.tdiv (20000#32).toInt 1000 = Int.tdiv (20999#32).toInt 1000 := by unfold Live; decide

/-- One wake short of the ratio, and at it. -/
theorem witness_CadenceCountsToTheRatio :
    (let s := asleepAt 0
     Live s ∧ s.cfg.valid = true ∧ s.cstate = .asleep ∧ s.reported = true ∧ s.cycles + 1 < 2 ^ s.cfg.cntW ∧
      |Int.tdiv (25400#32).toInt 1000 - s.lastC.toInt| < (s.cfg.delta : Int) ∧ s.cycles + 1 < s.cfg.ratio) ∧
    (let s := asleepAt 1
     Live s ∧ s.cfg.valid = true ∧ s.cstate = .asleep ∧ s.reported = true ∧ s.cycles + 1 < 2 ^ s.cfg.cntW ∧
      |Int.tdiv (25400#32).toInt 1000 - s.lastC.toInt| < (s.cfg.delta : Int) ∧ s.cfg.ratio ≤ s.cycles + 1) := by
  unfold Live; decide

theorem witness_SensorFailureIsIsolated : Live (asleepAt 3) ∧ (asleepAt 3).cstate = .asleep := by
  unfold Live; decide

theorem witness_WholeReportCycle : Live State.reset ∧ State.reset.cfg.valid = true ∧
    State.reset.cstate = .awakeSampling ∧ State.reset.mstate = .idle ∧ State.reset.reported = false := by
  unfold Live; decide

theorem witness_EmitterIsOffOutsideMarks :
    (CoreInv State.reset ∧ State.reset.mstate = .idle) ∧
    (CoreInv (sendingAt .bitSpace true 46 7) ∧ (sendingAt .bitSpace true 46 7).mstate = .bitSpace) :=
  ⟨⟨coreInv_reset, rfl⟩, ⟨by decide, rfl, by decide, by decide, le_refl _⟩, rfl⟩

end Sys2Proof.Tests
end

section
/-! The parameter constraints of R7 and the refusal of a set that breaks one (R9). -/

namespace Sys2Proof.Machine

/-- R9's bound, which keeps the follow-me byte `t + 1` below its bit 7 (R75), is the bound of R7's table. -/
theorem tempMax_succ_le_iff (p : Params) : p.tempMax + 1 ≤ 0x7F ↔ p.tempMax ≤ 126 := by omega

/-- Settles O10: `valid_iff` gives the constraints of R7's table, whose bound on `P_TEMP_MAX` is R9's, and
`step_of_invalid` the refusal. -/
theorem invalidParametersAreRefused : Obligations.InvalidParametersAreRefused := by
  refine ⟨fun p => ?_, fun _ => step_of_invalid⟩
  rw [valid_iff, tempMax_succ_le_iff]
  constructor
  · rintro ⟨unit, hdrM, hdrS, bitM, zero, one, ftrM, ftrS, hz, dutyLo, dutyHi, tLo, tOrd, tHi, cnt⟩
    exact ⟨unit, hdrM, hdrS, bitM, one, zero, ftrM, ftrS, hz, ⟨dutyLo, dutyHi⟩, ⟨tLo, tOrd⟩, tHi, cnt⟩
  · rintro ⟨unit, hdrM, hdrS, bitM, one, zero, ftrM, ftrS, hz, ⟨dutyLo, dutyHi⟩, ⟨tLo, tOrd⟩, tHi, cnt⟩
    exact ⟨unit, hdrM, hdrS, bitM, zero, one, ftrM, ftrS, hz, dutyLo, dutyHi, tLo, tOrd, tHi, cnt⟩

end Sys2Proof.Machine
end

section
/-! What an instruction can do, said once as a relation with one constructor for each way it can go. The
invariants and the frames below are case splits over it. -/

namespace Sys2Proof.Machine

/-- `exec i s` can lead to the second state: the instruction is taken in a state that accepts it, or the
block stays (R200), faults (R87, R136), or puts out a unit's value (R142). -/
inductive ExecTo : Instr → State → State → Prop
  | stays {i s} : ExecTo i s s
  | faults {i s} (r : Fault) : s.fault = none → ExecTo i s { s with fault := some r }
  | outputs {i s} (o : UnitOut) : isUnit i = true → ExecTo i s (outputUnit o s)
  | reset {s} : ExecTo .reset s (sampleEntry (resetLoads s))
  | wake {s} : s.cstate = .asleep → ExecTo .wake s (wakeEffect s)
  | senseOk {s} (v : Word32) : s.cstate = .awakeSampling → ExecTo (.senseOk v) s (senseOkEffect v s)
  | senseFail {s} : s.cstate = .awakeSampling → ExecTo .senseFail s (senseFailEffect s)
  | tickTransmits {s} (f : Frame) : s.cstate = .awakeDeciding → trigger s (truncC s.sampleMc) = true →
      buildFrame s.cfg (clampT s.cfg (truncC s.sampleMc)) = some f →
      ExecTo .tick s (post .modStart { s with frame := f, cstate := .awakeTransmitting })
  | tickSleeps {s} : s.cstate = .awakeDeciding → trigger s (truncC s.sampleMc) = false →
      ExecTo .tick s (sleepEntry (takePosted .tick s))
  | txDone {s} : s.cstate = .awakeTransmitting → ExecTo .txDone s (txDoneEffect s)
  | modStart {s} : s.mstate = .idle → ExecTo .modStart s (modStartEffect s)
  | hdrMarkEnd {s} : s.mstate = .hdrMark →
      ExecTo .modHdrMarkEnd s (startSpace .hdrSpace s.cfg.hdrSpace s)
  | hdrSpaceEnd {s} : s.mstate = .hdrSpace →
      ExecTo .modHdrSpaceEnd s (startMark .bitMark s.cfg.bitMark s)
  | bitMarkEnd {s} : s.mstate = .bitMark →
      ExecTo .modBitMarkEnd s
        (startSpace .bitSpace (bitSpaceUnits s.cfg (sentBit s.frame s.mcopy s.mbit)) s)
  | nextBit {s} (b : Fin 48) : s.mstate = .bitSpace → b.val = s.mbit.val + 1 →
      ExecTo .modBitSpaceEnd s (startMark .bitMark s.cfg.bitMark { s with mbit := b })
  | footer {s} : s.mstate = .bitSpace → s.mbit = 47 →
      ExecTo .modBitSpaceEnd s (startMark .ftrMark s.cfg.ftrMark s)
  | ftrMarkEnd {s} : s.mstate = .ftrMark →
      ExecTo .modFtrMarkEnd s (startSpace .ftrSpace s.cfg.ftrSpace s)
  | secondCopy {s} : s.mstate = .ftrSpace → s.mcopy = false →
      ExecTo .modFtrSpaceEnd s (startMark .hdrMark s.cfg.hdrMark { s with mcopy := true, mbit := 0 })
  | trainEnds {s} : s.mstate = .ftrSpace → s.mcopy = true →
      ExecTo .modFtrSpaceEnd s (post .txDone { s with mstate := .idle, mbit := 0, mcopy := false })

theorem execTo_of_gate {i : Instr} {s e t : State} {p : Prop} [Decidable p] (h : gate s p e = .next t)
    (he : s.fault = none → p → ExecTo i s e) : ExecTo i s t := by
  rcases gate_cases h with ⟨-, rfl⟩ | ⟨hf, -, rfl⟩ | ⟨hl, hp, rfl⟩
  · exact .stays
  · exact .faults _ hf
  · exact he hl.1 hp

theorem tickEffect_execTo {s : State} (hf : s.fault = none) (hc : s.cstate = .awakeDeciding) :
    ExecTo .tick s (tickEffect s) := by
  unfold tickEffect
  split
  case isTrue ht =>
    unfold transmitEffect
    split
    case h_1 f hb => exact .tickTransmits f hc ht hb
    case h_2 => rw [raise_of_none _ _ hf]; exact .faults _ hf
  case isFalse ht => exact .tickSleeps hc (Bool.eq_false_of_not_eq_true ht)

theorem bitSpaceEndEffect_execTo {s : State} (hm : s.mstate = .bitSpace) :
    ExecTo .modBitSpaceEnd s (bitSpaceEndEffect s) := by
  unfold bitSpaceEndEffect
  split
  · exact .nextBit _ hm rfl
  case isFalse hb =>
    have hlast : s.mbit = 47 := by
      have := s.mbit.isLt
      exact Fin.ext (show s.mbit.val = 47 by omega)
    exact .footer hm hlast

theorem ftrSpaceEndEffect_execTo {s : State} (hm : s.mstate = .ftrSpace) :
    ExecTo .modFtrSpaceEnd s (ftrSpaceEndEffect s) := by
  unfold ftrSpaceEndEffect
  split
  case isTrue hcopy => exact .secondCopy hm hcopy
  case isFalse hcopy => exact .trainEnds hm (Bool.eq_true_of_not_eq_false hcopy)

/-- Everything an instruction can do. -/
theorem exec_execTo {i : Instr} {s t : State} (h : exec i s = .next t) : ExecTo i s t := by
  by_cases hu : isUnit i = true
  · rcases unit_cases hu h with rfl | ⟨hf, r, rfl⟩ | ⟨o, rfl⟩
    · exact .stays
    · exact .faults r hf
    · exact .outputs o hu
  cases i with
  | reset => cases h; exact .reset
  | wake => exact execTo_of_gate h fun _ hc => .wake hc
  | senseOk v => exact execTo_of_gate h fun _ hc => .senseOk v hc
  | senseFail => exact execTo_of_gate h fun _ hc => .senseFail hc
  | tick => exact execTo_of_gate h tickEffect_execTo
  | txDone => exact execTo_of_gate h fun _ hc => .txDone hc
  | modStart => exact execTo_of_gate h fun _ hm => .modStart hm
  | modHdrMarkEnd => exact execTo_of_gate h fun _ hm => .hdrMarkEnd hm
  | modHdrSpaceEnd => exact execTo_of_gate h fun _ hm => .hdrSpaceEnd hm
  | modBitMarkEnd => exact execTo_of_gate h fun _ hm => .bitMarkEnd hm
  | modBitSpaceEnd => exact execTo_of_gate h fun _ hm => bitSpaceEndEffect_execTo hm
  | modFtrMarkEnd => exact execTo_of_gate h fun _ hm => .ftrMarkEnd hm
  | modFtrSpaceEnd => exact execTo_of_gate h fun _ hm => ftrSpaceEndEffect_execTo hm
  | _ => exact absurd rfl hu

/-! ### The time an expiry event stands for -/

/-- Before an instruction runs nothing, the rest of the sleep, or the rest of the pulse has passed. -/
theorem expire_cases (i : Instr) (s : State) :
    expire i s = s ∨ expire i s = finishSleep s ∨ expire i s = finishPulse s := by
  cases i with
  | wake => exact .inr (.inl rfl)
  | modHdrMarkEnd | modHdrSpaceEnd | modBitMarkEnd | modBitSpaceEnd | modFtrMarkEnd | modFtrSpaceEnd =>
    exact .inr (.inr rfl)
  | _ => exact .inl rfl

theorem le_finishPulse_cphase (s : State) : s.cphase ≤ (finishPulse s).cphase :=
  le_advancePhase (Nat.cast_nonneg _) s

theorem le_elapseUnit_cphase (s : State) : s.cphase ≤ (elapseUnit s).cphase :=
  le_advancePhase (Nat.cast_nonneg _) s

theorem le_elapseWait_cphase (s : State) : s.cphase ≤ (elapseWait s).cphase :=
  le_advancePhase (freeWait_nonneg _) s

theorem le_expire_cphase (i : Instr) (s : State) : s.cphase ≤ (expire i s).cphase := by
  rcases expire_cases i s with e | e | e <;> rw [e]
  · exact le_refl s.cphase
  · exact le_finishPulse_cphase s

theorem expire_cfg (i : Instr) (s : State) : (expire i s).cfg = s.cfg := by
  rcases expire_cases i s with e | e | e <;> rw [e] <;> rfl

theorem expire_trace (i : Instr) (s : State) : (expire i s).trace = s.trace := by
  rcases expire_cases i s with e | e | e <;> rw [e] <;> rfl

theorem expire_frame (i : Instr) (s : State) : (expire i s).frame = s.frame := by
  rcases expire_cases i s with e | e | e <;> rw [e] <;> rfl

end Sys2Proof.Machine
end

section
/-! The core invariant, whatever the environment delivers. -/

namespace Sys2Proof.Machine

theorem CoreInv.startMark {s : State} {m : MState} (h : CoreInv s) (hm : carrierOf m = true) (d : Nat) :
    CoreInv (startMark m d s) where
  legal := by rintro rfl; cases hm
  carrier := hm.symm
  cycles := h.cycles
  cycSnap := h.cycSnap
  phase := le_refl (0 : Rat)

theorem CoreInv.startSpace {s : State} {m : MState} (h : CoreInv s) (hr : m ≠ .reserved)
    (hm : carrierOf m = false) (d : Nat) : CoreInv (startSpace m d s) where
  legal := hr
  carrier := hm.symm
  cycles := h.cycles
  cycSnap := h.cycSnap
  phase := h.phase

theorem CoreInv.reset (s : State) : CoreInv (sampleEntry (resetLoads s)) where
  legal := MState.noConfusion
  carrier := rfl
  cycles := Nat.two_pow_pos _
  cycSnap := Nat.two_pow_pos _
  phase := le_refl (0 : Rat)

/-- The core invariant survives every way an instruction can go. -/
theorem CoreInv.execTo {i : Instr} {s t : State} (h : CoreInv s) (e : ExecTo i s t) : CoreInv t := by
  cases e with
  | stays => exact h
  | reset => exact .reset s
  | wake =>
    exact { h with cycles := Nat.mod_lt _ (Nat.two_pow_pos _), cycSnap := h.cycles }
  | senseFail =>
    refine { h with cycles := ?_ }
    change (if s.cfg.failUndoInc then s.cycSnap else s.cycles) < 2 ^ s.cfg.cntW
    split
    · exact h.cycSnap
    · exact h.cycles
  | txDone => exact { h with cycles := Nat.two_pow_pos _ }
  | modStart | nextBit | secondCopy =>
    refine .startMark ?_ (by rfl) _
    exact { h with }
  | hdrMarkEnd => exact h.startSpace MState.noConfusion rfl _
  | hdrSpaceEnd => exact h.startMark (by rfl) _
  | bitMarkEnd => exact h.startSpace MState.noConfusion rfl _
  | footer => exact h.startMark (by rfl) _
  | ftrMarkEnd => exact h.startSpace MState.noConfusion rfl _
  | trainEnds hm =>
    have hoff : s.carrierEn = false := by rw [h.carrier, hm]; rfl
    exact { h with legal := MState.noConfusion, carrier := hoff }
  | faults | outputs | senseOk | tickTransmits | tickSleeps => exact { h with }

theorem CoreInv.expire {s : State} (h : CoreInv s) (i : Instr) : CoreInv (expire i s) := by
  have hphase : 0 ≤ (Machine.expire i s).cphase := h.phase.trans (le_expire_cphase i s)
  rcases expire_cases i s with e | e | e <;> rw [e] at hphase ⊢ <;> exact { h with phase := hphase }

/-- Settles O42: the invariant survives each way a step can go, by `CoreInv.execTo` where an instruction is
taken and by the time's passing being forward where the timers run. -/
theorem everyStepKeepsCoreInv : Obligations.EveryStepKeepsCoreInv := by
  intro s t h hstep
  have ha : CoreInv (arrive s) := { h with }
  rcases (step_cases hstep).2 with
    ⟨w, i, -, -, -, hexec⟩ | ⟨i, -, hexec⟩ | ⟨r, rfl⟩ | ⟨-, -, rfl⟩ | rfl | rfl | rfl
  · exact (ha.expire i).execTo (exec_execTo hexec)
  · exact ha.execTo (exec_execTo hexec)
  · exact { ha with }
  · exact { ha with phase := ha.phase.trans (le_elapseUnit_cphase _) }
  · exact { ha with }
  · exact { ha with phase := ha.phase.trans (le_elapseWait_cphase _) }
  · exact ha

/-- Settles O60: the carrier column of R30 is 0 in these states, and EMIT_PIN needs CARRIER_EN. -/
theorem emitterIsOffOutsideMarks : Obligations.EmitterIsOffOutsideMarks := by
  intro s h hm
  have hoff : s.carrierEn = false := by
    rw [h.carrier]
    rcases hm with hm | hm | hm | hm <;> rw [hm] <;> rfl
  exact ⟨hoff, by rw [emitPin, hoff, Bool.false_and]⟩

end Sys2Proof.Machine
end

section
/-! What single registers do in a step: the parameters, the trace, FRAME, CPHASE, and who writes which. -/

namespace Sys2Proof.Machine

/-! ### Parameters and trace -/

/-- t has the parameters of s, and its trace goes on from that of s. -/
def Extends (s t : State) : Prop := t.cfg = s.cfg ∧ ∃ as, t.trace = s.trace ++ as

theorem Extends.of_eq {s t : State} (hcfg : t.cfg = s.cfg) (htrace : t.trace = s.trace) : Extends s t :=
  ⟨hcfg, [], by rw [htrace, List.append_nil]⟩

theorem ExecTo.extends_state {i : Instr} {s t : State} (e : ExecTo i s t) : Extends s t := by
  cases e with
  | stays | faults | outputs | senseOk | tickTransmits | trainEnds => exact .of_eq rfl rfl
  | modStart => exact ⟨rfl, _, List.append_assoc ..⟩
  | _ => exact ⟨rfl, _, rfl⟩

/-- Settles O49: an instruction only appends to the trace (`ExecTo.extends_state`), and time touches neither. -/
theorem stepKeepsParametersAndTrace : Obligations.StepKeepsParametersAndTrace := by
  intro s t hstep
  rcases (step_cases hstep).2 with
    ⟨w, i, -, -, -, hexec⟩ | ⟨i, -, hexec⟩ | ⟨r, rfl⟩ | ⟨-, -, rfl⟩ | rfl | rfl | rfl
  · obtain ⟨hcfg, as, htrace⟩ := (exec_execTo hexec).extends_state
    exact ⟨hcfg.trans (expire_cfg i _), as, by rw [htrace, expire_trace, arrive_trace]⟩
  · exact (exec_execTo hexec).extends_state
  all_goals exact Extends.of_eq rfl rfl

/-! ### Who writes which register -/

section
variable {i : Instr} {s t : State}

theorem ExecTo.report (e : ExecTo i s t) (hr : i ≠ .reset) (hd : i ≠ .txDone) :
    t.reported = s.reported ∧ t.lastC = s.lastC := by
  cases e with
  | reset => exact absurd rfl hr
  | txDone => exact absurd rfl hd
  | _ => exact ⟨rfl, rfl⟩

theorem ExecTo.cycles (e : ExecTo i s t) (hr : i ≠ .reset) (hw : i ≠ .wake) (hs : i ≠ .senseFail)
    (hd : i ≠ .txDone) : t.cycles = s.cycles := by
  cases e with
  | reset => exact absurd rfl hr
  | wake => exact absurd rfl hw
  | senseFail => exact absurd rfl hs
  | txDone => exact absurd rfl hd
  | _ => rfl

theorem ExecTo.cycSnap (e : ExecTo i s t) (hr : i ≠ .reset) (hw : i ≠ .wake) : t.cycSnap = s.cycSnap := by
  cases e with
  | reset => exact absurd rfl hr
  | wake => exact absurd rfl hw
  | _ => rfl

theorem ExecTo.sampleMc (e : ExecTo i s t) (hr : i ≠ .reset) (hv : ∀ v, i ≠ .senseOk v) :
    t.sampleMc = s.sampleMc := by
  cases e with
  | reset => exact absurd rfl hr
  | senseOk v => exact absurd rfl (hv v)
  | _ => rfl

theorem ExecTo.frame (e : ExecTo i s t) (hr : i ≠ .reset) (ht : i ≠ .tick) : t.frame = s.frame := by
  cases e with
  | reset => exact absurd rfl hr
  | tickTransmits => exact absurd rfl ht
  | _ => rfl

theorem ExecTo.cstate (e : ExecTo i s t) (hr : i ≠ .reset) (hi : i ∉ [.wake, .senseFail, .tick, .txDone])
    (hv : ∀ v, i ≠ .senseOk v) : t.cstate = s.cstate := by
  cases e with
  | reset => exact absurd rfl hr
  | senseOk v => exact absurd rfl (hv v)
  | wake | senseFail | tickTransmits | tickSleeps | txDone => exact absurd (by decide) hi
  | _ => rfl

theorem ExecTo.sreq (e : ExecTo i s t) (hr : i ≠ .reset) (hi : i ∉ [.wake, .senseFail])
    (hv : ∀ v, i ≠ .senseOk v) : t.sreq = s.sreq := by
  cases e with
  | reset => exact absurd rfl hr
  | senseOk v => exact absurd rfl (hv v)
  | wake | senseFail => exact absurd (by decide) hi
  | _ => rfl

theorem ExecTo.sleepTimer (e : ExecTo i s t) (hr : i ≠ .reset)
    (hi : i ∉ [.wake, .senseFail, .tick, .txDone]) :
    t.stimerArmed = s.stimerArmed ∧ t.stimerRem = s.stimerRem := by
  cases e with
  | reset => exact absurd rfl hr
  | wake | senseFail | tickSleeps | txDone => exact absurd (by decide) hi
  | _ => exact ⟨rfl, rfl⟩

theorem ExecTo.modulator (e : ExecTo i s t) (hr : i ≠ .reset)
    (hi : i ∉ [.modStart, .modHdrMarkEnd, .modHdrSpaceEnd, .modBitMarkEnd, .modBitSpaceEnd, .modFtrMarkEnd,
      .modFtrSpaceEnd]) :
    t.mstate = s.mstate ∧ t.mcopy = s.mcopy ∧ t.mbit = s.mbit ∧ t.mtimer = s.mtimer ∧
      t.carrierEn = s.carrierEn ∧ t.cphase = s.cphase := by
  cases e with
  | reset => exact absurd rfl hr
  | modStart | hdrMarkEnd | hdrSpaceEnd | bitMarkEnd | nextBit | footer | ftrMarkEnd | secondCopy | trainEnds =>
    exact absurd (by decide) hi
  | _ => exact ⟨rfl, rfl, rfl, rfl, rfl, rfl⟩

end

/-- Settles O53: one lemma per register; a modulator key is none of the control FSM's. -/
theorem registersHaveTheirWriters : Obligations.RegistersHaveTheirWriters := by
  intro i s t hexec hr
  have e := exec_execTo hexec
  refine ⟨e.report hr, e.cycles hr, e.cycSnap hr, e.sampleMc hr, e.frame hr, e.cstate hr, e.sreq hr,
    e.sleepTimer hr, e.modulator hr, fun hi => ?_⟩
  have hv : ∀ v, i ≠ .senseOk v := by rintro v rfl; simp at hi
  have hctl : i ∉ [.wake, .senseFail, .tick, .txDone] := by
    intro hc
    fin_cases hc <;> simp at hi
  simp only [List.mem_cons, List.not_mem_nil, or_false, not_or] at hctl
  obtain ⟨hw, hf, ht, hd⟩ := hctl
  exact ⟨e.cstate hr (by simp [hw, hf, ht, hd]) hv, e.sampleMc hr hv, e.cycles hr hw hf hd,
    e.sreq hr (by simp [hw, hf]) hv⟩

/-! ### FRAME -/

theorem isUnit_ne {i j : Instr} (hi : isUnit i = true) (hj : isUnit j = false) : i ≠ j := by
  rintro rfl
  rw [hi] at hj
  cases hj

/-- Settles O50: only TICK and RESET write FRAME; TICK is taken in AWAKE_DECIDING alone, and RESET on its own
word. -/
theorem frameIsFixedWhileTransmitting : Obligations.FrameIsFixedWhileTransmitting := by
  refine ⟨fun i s t ht hr hexec => (exec_execTo hexec).frame hr ht, ?_⟩
  intro s t _ hc hw hstep
  rcases (step_cases hstep).2 with
    ⟨w, i, hdue, htaken, -, hexec⟩ | ⟨i, hu, hexec⟩ | ⟨r, rfl⟩ | ⟨-, -, rfl⟩ | rfl | rfl | rfl
  · have hr : i ≠ .reset := by
      rintro rfl
      exact hw (by rw [hdue, show w = resetWord from htaken])
    have ht : i ≠ .tick := by
      rintro rfl
      obtain ⟨-, hdeciding, -⟩ := htaken
      rw [hc] at hdeciding
      cases hdeciding
    rw [(exec_execTo hexec).frame hr ht, expire_frame, arrive_frame]
  · exact (exec_execTo hexec).frame (isUnit_ne hu rfl) (isUnit_ne hu rfl)
  all_goals rfl

/-! ### CPHASE -/

/-- CPHASE is written by RESET and by the four keys that start a mark, which set it to 0. -/
theorem ExecTo.cphase {i : Instr} {s t : State} (e : ExecTo i s t) :
    t.cphase = s.cphase ∨ (t.cphase = 0 ∧ (i = .reset ∨
      (i ∈ [.modStart, .modHdrSpaceEnd, .modBitSpaceEnd, .modFtrSpaceEnd] ∧ t.carrierEn = true))) := by
  cases e with
  | reset => exact .inr ⟨rfl, .inl rfl⟩
  | modStart | hdrSpaceEnd | nextBit | footer | secondCopy => exact .inr ⟨rfl, .inr ⟨by decide, rfl⟩⟩
  | _ => exact .inl rfl

theorem timersDue_of_pulse {s : State} (hi : s.mstate ≠ .idle) (hr : s.mstate ≠ .reserved)
    (ht : 1 ≤ s.mtimer) : timersDue s = .unitOfTime := by
  rw [timersDue, if_neg hr, if_pos hi, if_neg (by omega)]

theorem step_unitOfTime {s : State} (hv : s.cfg.valid = true) (hf : s.fault = none) (hp : s.pending = none)
    (hb : s.inbox = []) (hi : s.mstate ≠ .idle) (hr : s.mstate ≠ .reserved) (ht : 1 ≤ s.mtimer) :
    step s = .next (elapseUnit s) := by
  rw [step_of_valid hv, due_quiet hb hp hf, timersDue_of_pulse hi hr ht, arrive_quiet hb]
  rfl

theorem step_cphase {s t : State} (hstep : step s = .next t) : t.cphase = 0 ∨ s.cphase ≤ t.cphase := by
  rcases (step_cases hstep).2 with
    ⟨w, i, -, -, -, hexec⟩ | ⟨i, -, hexec⟩ | ⟨r, rfl⟩ | ⟨-, -, rfl⟩ | rfl | rfl | rfl
  · rcases (exec_execTo hexec).cphase with hkept | ⟨hzero, -⟩
    · exact .inr (hkept ▸ le_expire_cphase i (arrive s))
    · exact .inl hzero
  · rcases (exec_execTo hexec).cphase with hkept | ⟨hzero, -⟩
    · exact .inr hkept.ge
    · exact .inl hzero
  · exact .inr (le_refl s.cphase)
  · exact .inr (le_elapseUnit_cphase (arrive s))
  · exact .inr (le_refl s.cphase)
  · exact .inr (le_elapseWait_cphase (arrive s))
  · exact .inr (le_refl s.cphase)

/-- Settles O39, by `ExecTo.cphase`, the step that passes one unit, and time's passing being forward. -/
theorem carrierPhaseFollowsTime : Obligations.CarrierPhaseFollowsTime :=
  ⟨fun _ _ _ hexec hne => (exec_execTo hexec).cphase.resolve_left hne,
    fun _ hv hf hp hb hi hr ht => step_unitOfTime hv hf hp hb hi hr ht, fun _ _ => step_cphase⟩

end Sys2Proof.Machine
end

section
/-! The loop invariant under the contract of R206. Outside a transmission the modulator is at rest and the posted
event is a function of CSTATE; while it runs, only the registers of the train move. -/

namespace Sys2Proof.Machine

/-! ### The modulator at rest -/

/-- The modulator is idle, with its registers as R176 and R230 leave them. -/
structure AtRest (s : State) : Prop where
  idle : s.mstate = .idle
  mbit : s.mbit = 0
  mcopy : s.mcopy = false
  mtimer : s.mtimer = 0

section
variable {s : State}

theorem LoopInv.atRest (h : LoopInv s) (hm : s.mstate = .idle) : AtRest s where
  idle := hm
  mbit := (h.rest hm).1
  mcopy := (h.rest hm).2
  mtimer := by
    have hunits : pulseUnits s = 0 := by rw [pulseUnits, hm]
    exact Nat.le_zero.mp (hunits ▸ h.timer)

theorem LoopInv.idle_of_not_transmitting (h : LoopInv s) (hc : s.cstate ≠ .awakeTransmitting) :
    s.mstate = .idle := by
  by_contra hm
  exact hc (h.busy hm).1

theorem LoopInv.atRest_of_not_transmitting (h : LoopInv s) (hc : s.cstate ≠ .awakeTransmitting) : AtRest s :=
  h.atRest (h.idle_of_not_transmitting hc)

theorem LoopInv.idle_of_posted (h : LoopInv s)
    (hp : s.pending = some .modStart ∨ s.pending = some .txDone) :
    s.mstate = .idle := by
  by_contra hm
  rw [(h.busy hm).2] at hp
  simp at hp

/-- Sampling or asleep, nothing is posted. -/
theorem LoopInv.pending_none (h : LoopInv s) (ht : s.cstate ≠ .awakeTransmitting)
    (hd : s.cstate ≠ .awakeDeciding) : s.pending = none := by
  cases hp : s.pending with
  | none => rfl
  | some p =>
    cases p with
    | tick => exact absurd (h.tick.mp hp) hd
    | modStart => exact absurd (h.posted (.inl hp)) ht
    | txDone => exact absurd (h.posted (.inr hp)) ht

/-- Outside a transmission the invariant is this much: the modulator rests, and `TICK` alone is posted, while
deciding. -/
theorem loopInv_of_atRest (hr : AtRest s) (hc : s.cstate ≠ .awakeTransmitting)
    (sreq : s.sreq = decide (s.cstate = .awakeSampling)) (armed : s.stimerArmed = decide (s.cstate = .asleep))
    (rem : s.stimerRem ≤ s.cfg.wakeS)
    (hp : s.pending = if s.cstate = .awakeDeciding then some .tick else none) : LoopInv s where
  sreq := sreq
  armed := armed
  rem := rem
  tick := by rw [hp]; split <;> simp [*]
  busy hm := absurd hr.idle hm
  turn ht := absurd ht hc
  posted := by rw [hp]; split <;> simp
  frame ht := absurd ht hc
  rest _ := ⟨hr.mbit, hr.mcopy⟩
  header _ := hr.mbit
  footer hm := by rw [hr.idle] at hm; simp at hm
  timer := hr.mtimer ▸ Nat.zero_le _

/-! ### The modulator running -/

/-- While transmitting with nothing posted, the train may move to any pulse that its bit index and timer fit. -/
theorem LoopInv.train (h : LoopInv s) (hc : s.cstate = .awakeTransmitting) {p : Option Posted} (hp : p = none)
    {m : MState} {b : Fin 48} {c : Bool} {d : Nat} {e : Bool} {phase : Rat} {trace : List Action}
    (hm : m ≠ .idle)
    (header : m = .hdrMark ∨ m = .hdrSpace → b = 0) (footer : m = .ftrMark ∨ m = .ftrSpace → b = 47)
    (timer : d ≤ pulseUnits { s with mstate := m, mbit := b, mcopy := c }) :
    LoopInv { s with
      mstate := m, mbit := b, mcopy := c, mtimer := d, carrierEn := e, cphase := phase, trace := trace
      pending := p } where
  sreq := h.sreq
  armed := h.armed
  rem := h.rem
  tick := by simp [hc, hp]
  busy _ := ⟨hc, hp⟩
  turn _ hi := absurd hi hm
  posted := by simp [hp]
  frame := h.frame
  rest hi := absurd hi hm
  header := header
  footer := footer
  timer := timer

theorem LoopInv.nextPulse (h : LoopInv s) (hs : s.mstate ≠ .idle)
    {m : MState} {b : Fin 48} {c : Bool} {d : Nat} {e : Bool} {phase : Rat} {trace : List Action}
    (hm : m ≠ .idle)
    (header : m = .hdrMark ∨ m = .hdrSpace → b = 0) (footer : m = .ftrMark ∨ m = .ftrSpace → b = 47)
    (timer : d ≤ pulseUnits { s with mstate := m, mbit := b, mcopy := c }) :
    LoopInv { s with
      mstate := m, mbit := b, mcopy := c, mtimer := d, carrierEn := e, cphase := phase, trace := trace } :=
  h.train (h.busy hs).1 (h.busy hs).2 hm header footer timer

end

/-! ### Instructions -/

theorem eq_makeFrame_of_buildFrame {p : Params} {t : Int} {f : Frame} (h : buildFrame p t = some f) :
    f = makeFrame p t := by
  unfold buildFrame at h
  split at h <;> cases h
  rfl

theorem LoopInv.reset (s : State) : LoopInv (sampleEntry (resetLoads s)) :=
  loopInv_of_atRest ⟨rfl, rfl, rfl, rfl⟩ CState.noConfusion rfl rfl (Nat.zero_le _) rfl

/-- The loop invariant survives every way an instruction can go, if `MOD_START` and `TX_DONE` were posted (R206)
and the last pulse has run its time (R211). -/
theorem LoopInv.execTo {i : Instr} {s t : State} (h : LoopInv s) (e : ExecTo i s t)
    (hstart : i = .modStart → s.pending = some .modStart) (hdone : i = .txDone → s.pending = some .txDone)
    (hend : i = .modFtrSpaceEnd → s.mtimer = 0) : LoopInv t := by
  cases e with
  | stays => exact h
  | faults | outputs => exact { h with }
  | reset => exact .reset s
  | wake hc =>
    have ht : s.cstate ≠ .awakeTransmitting := by simp [hc]
    have hr := h.atRest_of_not_transmitting ht
    exact loopInv_of_atRest { hr with } CState.noConfusion rfl rfl h.rem (h.pending_none ht (by simp [hc]))
  | senseOk v hc =>
    have hr := h.atRest_of_not_transmitting (by simp [hc])
    have harmed : s.stimerArmed = false := by simp [h.armed, hc]
    exact loopInv_of_atRest { hr with } CState.noConfusion rfl harmed h.rem rfl
  | senseFail hc =>
    have ht : s.cstate ≠ .awakeTransmitting := by simp [hc]
    have hr := h.atRest_of_not_transmitting ht
    exact loopInv_of_atRest { hr with } CState.noConfusion rfl rfl (le_refl s.cfg.wakeS)
      (h.pending_none ht (by simp [hc]))
  | tickTransmits f hc _ hb =>
    have hr := h.atRest_of_not_transmitting (by simp [hc])
    have hsreq : s.sreq = false := by simp [h.sreq, hc]
    have harmed : s.stimerArmed = false := by simp [h.armed, hc]
    exact { h with
      sreq := hsreq
      armed := harmed
      tick := by simp [post]
      busy := fun hm => absurd hr.idle hm
      turn := fun _ _ => .inl rfl
      posted := fun _ => rfl
      frame := fun _ => eq_makeFrame_of_buildFrame hb
      timer := hr.mtimer.le.trans (Nat.zero_le _) }
  | tickSleeps hc =>
    have hr := h.atRest_of_not_transmitting (by simp [hc])
    have hsreq : s.sreq = false := by simp [h.sreq, hc]
    have hp : (takePosted .tick s).pending = none := if_pos (h.tick.mpr hc)
    exact loopInv_of_atRest { hr with } CState.noConfusion hsreq rfl (le_refl s.cfg.wakeS) hp
  | txDone hc =>
    have hposted := hdone rfl
    have hr := h.atRest (h.idle_of_posted (.inr hposted))
    have hsreq : s.sreq = false := by simp [h.sreq, hc]
    have hp : (takePosted .txDone s).pending = none := if_pos hposted
    exact loopInv_of_atRest { hr with } CState.noConfusion hsreq rfl (le_refl s.cfg.wakeS) hp
  | modStart =>
    have hposted := hstart rfl
    have hp : (takePosted .modStart s).pending = none := if_pos hposted
    exact h.train (h.posted (.inl hposted)) hp MState.noConfusion (fun _ => rfl) (by simp)
      (le_refl s.cfg.hdrMark)
  | hdrMarkEnd hm =>
    exact h.nextPulse (by simp [hm]) MState.noConfusion (fun _ => h.header (.inl hm)) (by simp) (le_refl s.cfg.hdrSpace)
  | hdrSpaceEnd hm =>
    exact h.nextPulse (by simp [hm]) MState.noConfusion (by simp) (by simp) (le_refl s.cfg.bitMark)
  | bitMarkEnd hm =>
    exact h.nextPulse (by simp [hm]) MState.noConfusion (by simp) (by simp) (le_refl (bitSpaceUnits ..))
  | nextBit b hm =>
    exact h.nextPulse (by simp [hm]) MState.noConfusion (by simp) (by simp) (le_refl s.cfg.bitMark)
  | footer hm hlast =>
    exact h.nextPulse (by simp [hm]) MState.noConfusion (by simp) (fun _ => hlast) (le_refl s.cfg.ftrMark)
  | ftrMarkEnd hm =>
    exact h.nextPulse (by simp [hm]) MState.noConfusion (by simp) (fun _ => h.footer (.inl hm)) (le_refl s.cfg.ftrSpace)
  | secondCopy hm =>
    exact h.nextPulse (by simp [hm]) MState.noConfusion (fun _ => rfl) (by simp) (le_refl s.cfg.hdrMark)
  | trainEnds hm =>
    have hc := (h.busy (by simp [hm])).1
    exact { h with
      tick := by simp [post, hc]
      busy := fun hi => absurd rfl hi
      turn := fun _ _ => .inr rfl
      posted := fun _ => hc
      rest := fun _ => ⟨rfl, rfl⟩
      header := by simp [post]
      footer := by simp [post]
      timer := (hend rfl).le }

theorem LoopInv.expire {s : State} (h : LoopInv s) (i : Instr) : LoopInv (expire i s) := by
  rcases expire_cases i s with e | e | e <;> rw [e]
  · exact h
  · exact { h with rem := Nat.zero_le _ }
  · exact { h with timer := Nat.zero_le _ }

/-- Settles O44: R206's contract gives the two posted events their source, `expire` the last pulse its time, and
the timers only count down. -/
theorem everyStepKeepsLoopInv : Obligations.EveryStepKeepsLoopInv := by
  intro s t h ⟨henvStart, henvDone⟩ hstep
  have ha : LoopInv (arrive s) := { h with }
  rcases (step_cases hstep).2 with
    ⟨w, i, hdue, htaken, -, hexec⟩ | ⟨i, hu, hexec⟩ | ⟨r, rfl⟩ | ⟨-, -, rfl⟩ | rfl | rfl | rfl
  · refine (ha.expire i).execTo (exec_execTo hexec) ?_ ?_ ?_
    · rintro rfl
      exact henvStart (by rw [hdue, htaken.2])
    · rintro rfl
      obtain ⟨-, -, rfl⟩ := htaken
      exact henvDone hdue
    · rintro rfl
      rfl
  · exact ha.execTo (exec_execTo hexec) (absurd · (isUnit_ne hu rfl)) (absurd · (isUnit_ne hu rfl))
      (absurd · (isUnit_ne hu rfl))
  · exact { ha with }
  · exact { ha with timer := (Nat.sub_le _ 1).trans ha.timer }
  · exact { ha with rem := (Nat.sub_le _ 1).trans ha.rem }
  · exact { ha with }
  · exact ha

end Sys2Proof.Machine
end

section
/-! The on-air order of a frame's bytes and bits (R52 to R54): byte i of the frame word lies at bit 40 - 8 * i, so
bit j of that byte is bit 40 - 8 * i + j of the word. -/

namespace Sys2Proof.Machine

/-- The place of byte i in the frame word (R54): the bytes behind it lie below bit 40 - 8 * i, those before it
above. -/
theorem extractLsb'_frameWord (f : Frame) (i : Fin 6) :
    (frameWord f).extractLsb' (40 - 8 * i.val) 8 = frameByte f i := by
  unfold frameWord
  match i with
  | 0 | 1 | 2 | 3 | 4 =>
    repeat rw [BitVec.extractLsb'_append_eq_of_add_le (by decide)]
    exact BitVec.extractLsb'_append_eq_left
  | 5 =>
    repeat rw [BitVec.extractLsb'_append_eq_of_add_le (by decide)]
    exact BitVec.extractLsb'_eq_self

theorem getLsbD_frameWord (f : Frame) (i : Fin 6) {j : Nat} (hj : j < 8) :
    (frameWord f).getLsbD (40 - 8 * i.val + j) = (frameByte f i).getLsbD j := by
  simp [← extractLsb'_frameWord, hj]

/-- R53's byte and bit index, at any byte index equal to k div 8. -/
theorem frameBit_eq_getLsbD_frameByte (f : Frame) (k : Fin 48) {i : Fin 6} (hi : i.val = k.val / 8) :
    frameBit f k = (frameByte f i).getLsbD (7 - k.val % 8) := by
  have hindex : i = ⟨k.val / 8, hi ▸ i.isLt⟩ := Fin.ext hi
  rw [hindex, frameBit]

/-- R54's reading of R53: the frame word is sent MSB first. -/
theorem frameBit_eq_getLsbD_frameWord (f : Frame) (k : Fin 48) :
    frameBit f k = (frameWord f).getLsbD (47 - k.val) := by
  have hplace : 47 - k.val = 40 - 8 * (k.val / 8) + (7 - k.val % 8) := by omega
  rw [hplace]
  exact (getLsbD_frameWord f ⟨k.val / 8, by omega⟩ (by omega)).symm

/-- Settles O41: the byte places are `extractLsb'_frameWord`, and the bit places follow from them, since
47 - k is bit 7 - k mod 8 of byte k div 8. -/
theorem onAirBitOrder : Obligations.OnAirBitOrder :=
  ⟨fun f => ⟨extractLsb'_frameWord f 0, extractLsb'_frameWord f 1, extractLsb'_frameWord f 2,
      extractLsb'_frameWord f 3, extractLsb'_frameWord f 4, extractLsb'_frameWord f 5⟩,
    fun f k => ⟨frameBit_eq_getLsbD_frameWord f k, fun _ hi => frameBit_eq_getLsbD_frameByte f k hi⟩⟩

end Sys2Proof.Machine
end

section
/-! Decoding what the encoder writes (R83, R84, R89, R78). A key is judged like its event word in the state the key
names, so the verdicts on event words give the keys'; a unit word's operand fields are read back one by one. -/

namespace Sys2Proof

/-! ### Keys -/

theorem verdict_ctlKey {cs : CState} {ms : MState} {w : EventWord} (hm : ms ≠ .reserved)
    (hw : isModCode (evCode w) = false) : decode (.ctl (ctlKey cs w)) = decodeEvent cs ms w := by
  simp [decode, decodeEvent, hm, hw]

theorem verdict_modKey {cs : CState} {ms : MState} {w : EventWord} (hm : ms ≠ .reserved)
    (hw : isModCode (evCode w) = true) : decode (.mod (modKey ms w)) = decodeEvent cs ms w := by
  simp [decode, decodeEvent, hm, hw]

/-- A control key decodes to the instruction that its event word is taken as in the state it names. -/
theorem decode_ctlKey {cs : CState} {w : EventWord} {i : Instr} (h : TakenOn cs .idle w i)
    (hw : isModCode (evCode w) = false) : decode (.ctl (ctlKey cs w)) = .legal i :=
  (verdict_ctlKey MState.noConfusion hw).trans (decodeEvent_of_taken h)

/-- The same of a modulator key; CSTATE plays no part, and `asleep` stands for any. -/
theorem decode_modKey {ms : MState} {w : EventWord} {i : Instr} (h : TakenOn .asleep ms w i)
    (hm : ms ≠ .reserved) (hw : isModCode (evCode w) = true) : decode (.mod (modKey ms w)) = .legal i :=
  (verdict_modKey hm hw).trans (decodeEvent_of_taken h)

/-! ### Operands of unit words -/

theorem legalIf_opsBelow_setWidth {n : Nat} (x : BitVec n) (h : n ≤ 56) (i : Instr) :
    legalIf (opsBelow (x.setWidth 56) n) i = .legal i := by
  rw [opsBelow_setWidth x h]; rfl

theorem opByte_setWidth_byte (b : Byte) : opByte (b.setWidth 56) 0 = b := by
  rw [opByte, extractLsb'_setWidth b _ _ (by decide) (by decide), Nat.mul_zero, BitVec.extractLsb'_eq_self]

theorem extractLsb'_setWidth_word (v : Word32) : (v.setWidth 56).extractLsb' 0 32 = v := by
  rw [extractLsb'_setWidth v _ _ (by decide) (by decide), BitVec.extractLsb'_eq_self]

/-- A whole-degree operand reads back, since it fits the 32 bits of R8. -/
theorem opDegrees_setWidth {t : Int} (h : fits32 t = true) :
    opDegrees ((BitVec.ofInt 32 t).setWidth 56) = t := by
  rw [fits32, Bool.and_eq_true, decide_eq_true_eq, decide_eq_true_eq] at h
  rw [opDegrees, extractLsb'_setWidth_word, BitVec.toInt_ofInt_eq_self (by decide) h.1 h.2]

/-- A frame reads back from below any further operand bits. -/
theorem opFrame_append_packFrame {n : Nat} (a : BitVec n) (f : Frame) (h : n + 48 ≤ 56) :
    opFrame ((a ++ packFrame f).setWidth 56) = f := by
  have hbyte (j : Nat) (hj : j < 6) :
      opByte ((a ++ packFrame f).setWidth 56) j = opByte ((packFrame f).setWidth 56) j := by
    rw [opByte, opByte, extractLsb'_setWidth _ _ _ (by omega) h, extract_lower _ _ _ _ (by omega) (by decide),
      extractLsb'_setWidth _ _ _ (by omega) (by decide)]
  calc opFrame ((a ++ packFrame f).setWidth 56)
      = opFrame ((packFrame f).setWidth 56) := by simp [opFrame, hbyte]
    _ = f := opFrame_packFrame f

/-- The polarity of `COPY` reads back from operand bit 48, above its frame. -/
theorem getElem_polarity (c : Bool) (f : Frame) : (BitVec.ofBool c ++ packFrame f)[48] = c := by
  have happend := BitVec.getElem_append (x := BitVec.ofBool c) (y := packFrame f) (i := 48) (by decide)
  rw [dif_neg (by decide)] at happend
  exact happend.trans (by simp)

/-- The five bytes of a `CHECKSUM` word are a frame whose sixth byte is zero. -/
theorem opFrame_five_bytes (b0 b1 b2 b3 b4 : Byte) :
    opFrame ((b4 ++ (b3 ++ (b2 ++ (b1 ++ b0)))).setWidth 56) = ⟨b0, b1, b2, b3, b4, 0#8⟩ := by
  have hpack : packFrame ⟨b0, b1, b2, b3, b4, 0#8⟩ = (b4 ++ (b3 ++ (b2 ++ (b1 ++ b0)))).setWidth 48 :=
    (BitVec.setWidth_eq_append (by decide)).symm
  rw [← opFrame_packFrame ⟨b0, b1, b2, b3, b4, 0#8⟩, hpack, BitVec.setWidth_setWidth (by decide)]

theorem decodeUnit_checksum (b0 b1 b2 b3 b4 : Byte) :
    decodeUnit (unitWord 0x2#4 ((b4 ++ (b3 ++ (b2 ++ (b1 ++ b0)))).setWidth 56)) =
      .legal (.checksum b0 b1 b2 b3 b4) := by
  have hops := opFrame_five_bytes b0 b1 b2 b3 b4
  simp only [opFrame, Frame.mk.injEq] at hops
  obtain ⟨h0, h1, h2, h3, h4, -⟩ := hops
  simp [decodeUnit, legalIf_opsBelow_setWidth, h0, h1, h2, h3, h4]

/-- Settles O1: a key by the verdict on its event word, a unit word by reading back its operands, a symbol by its
code. -/
theorem decodeOfEncodeIsTheInstruction : Obligations.DecodeOfEncodeIsTheInstruction := by
  intro i hwf
  cases i with
  | reset => exact decode_ctlKey rfl rfl
  | senseOk v =>
    exact decode_ctlKey ⟨MState.noConfusion, rfl, rfl⟩ (by simp [senseOkWord, isModCode])
  | wake | senseFail | tick | txDone => exact decode_ctlKey ⟨MState.noConfusion, rfl, rfl⟩ rfl
  | modStart | modHdrMarkEnd | modHdrSpaceEnd | modBitMarkEnd | modBitSpaceEnd | modFtrMarkEnd
  | modFtrSpaceEnd => exact decode_modKey ⟨rfl, rfl⟩ MState.noConfusion rfl
  | rev8 b => simp [encode, decode, decodeUnit, legalIf_opsBelow_setWidth, opByte_setWidth_byte]
  | checksum b0 b1 b2 b3 b4 => exact decodeUnit_checksum b0 b1 b2 b3 b4
  | buildFrame t | clampT t | trigger t =>
    simp [encode, decode, decodeUnit, legalIf_opsBelow_setWidth, opDegrees_setWidth hwf]
  | truncC v => simp [encode, decode, decodeUnit, legalIf_opsBelow_setWidth, extractLsb'_setWidth_word]
  | verifyFrame f | pulseTrain f =>
    simp [encode, decode, decodeUnit, legalIf_opsBelow_setWidth, opFrame_packFrame]
  | copy f c =>
    simp [encode, decode, decodeUnit, legalIf_opsBelow_setWidth, opFrame_append_packFrame, getElem_polarity]
  | carrier | symHdr | symBit0 | symBit1 | symFtr => rfl

end Sys2Proof
end

section
/-! The key rows of R83 and R84 by mask and match: two rows whose matches differ under the common part of their masks
share no key, so each row is taken exactly on its own keys. -/

namespace Sys2Proof

/-- The control row that gives the instruction matches the key (R83); no other instruction has a control row. -/
def CtlRow (k : CtlKey) : Instr → Prop
  | .reset => k &&& 0x0FFFFFFFFFF#42 = 0x00100000000#42
  | .wake => k &&& 0x3FFFFFFFFFF#42 = 0x30200000000#42
  | .senseOk v => k &&& 0x3FF00000000#42 = 0x00300000000#42 ∧ k.extractLsb' 0 32 = v
  | .senseFail => k &&& 0x3FFFFFFFFFF#42 = 0x00400000000#42
  | .tick => k &&& 0x3FFFFFFFFFF#42 = 0x10500000000#42
  | .txDone => k &&& 0x3FFFFFFFFFF#42 = 0x20600000000#42
  | _ => False

/-- The modulator row that gives the instruction matches the key (R84). -/
def ModRow (k : ModKey) : Instr → Prop
  | .reset => k &&& 0x0FFFFFFFFFF#43 = 0x00100000000#43
  | .modStart => k &&& 0x7FFFFFFFFFF#43 = 0x01000000000#43
  | .modHdrMarkEnd => k &&& 0x7FFFFFFFFFF#43 = 0x11100000000#43
  | .modHdrSpaceEnd => k &&& 0x7FFFFFFFFFF#43 = 0x21100000000#43
  | .modBitMarkEnd => k &&& 0x7FFFFFFFFFF#43 = 0x31100000000#43
  | .modBitSpaceEnd => k &&& 0x7FFFFFFFFFF#43 = 0x41100000000#43
  | .modFtrMarkEnd => k &&& 0x7FFFFFFFFFF#43 = 0x51100000000#43
  | .modFtrSpaceEnd => k &&& 0x7FFFFFFFFFF#43 = 0x61100000000#43
  | _ => False

/-- Rows whose matches differ where both masks look do not overlap. -/
theorem row_excludes {n : Nat} {k mask₁ match₁ : BitVec n} (h : k &&& mask₁ = match₁)
    (mask₂ match₂ : BitVec n) (hne : match₁ &&& mask₂ ≠ match₂ &&& mask₁) : k &&& mask₂ ≠ match₂ := by
  rintro rfl
  apply hne
  rw [← h, BitVec.and_assoc, BitVec.and_assoc, BitVec.and_comm mask₁]

theorem ctlKeyInstr_row {k : CtlKey} {i : Instr} (h : ctlKeyInstr k = some i) : CtlRow k i := by
  unfold ctlKeyInstr at h
  iterate 2
    split at h
    · cases h; assumption
  split at h
  case isTrue hk => cases h; exact ⟨hk, rfl⟩
  iterate 3
    split at h
    · cases h; assumption
  cases h

theorem modKeyInstr_row {k : ModKey} {i : Instr} (h : modKeyInstr k = some i) : ModRow k i := by
  unfold modKeyInstr at h
  iterate 8
    split at h
    · cases h; assumption
  cases h

/-- The lookup of a control key answers the row that matches it: the match excludes every row above. -/
theorem ctlKeyInstr_iff {k : CtlKey} {i : Instr} : ctlKeyInstr k = some i ↔ CtlRow k i := by
  refine ⟨ctlKeyInstr_row, fun h => ?_⟩
  unfold ctlKeyInstr
  cases i with
  | senseOk v =>
    obtain ⟨hk, rfl⟩ := h
    simp (disch := decide) only [row_excludes hk, if_pos hk, if_false]
  | reset | wake | senseFail | tick | txDone =>
    unfold CtlRow at h
    simp (disch := decide) only [row_excludes h, if_pos h, if_false]
  | _ => exact h.elim

/-- The same of a modulator key. -/
theorem modKeyInstr_iff {k : ModKey} {i : Instr} : modKeyInstr k = some i ↔ ModRow k i := by
  refine ⟨modKeyInstr_row, fun h => ?_⟩
  unfold modKeyInstr
  cases i with
  | reset | modStart | modHdrMarkEnd | modHdrSpaceEnd | modBitMarkEnd | modBitSpaceEnd | modFtrMarkEnd
  | modFtrSpaceEnd =>
    unfold ModRow at h
    simp (disch := decide) only [row_excludes h, if_pos h, if_false]
  | _ => exact h.elim

/-- Settles O2: each part is the row characterization at that part's instruction. -/
theorem keyRowsDecideTheKeys : Obligations.KeyRowsDecideTheKeys :=
  ⟨fun _ => ⟨ctlKeyInstr_iff, ctlKeyInstr_iff, fun _ => ctlKeyInstr_iff, ctlKeyInstr_iff, ctlKeyInstr_iff,
    ctlKeyInstr_iff⟩, fun _ => ⟨modKeyInstr_iff, modKeyInstr_iff, modKeyInstr_iff, modKeyInstr_iff,
    modKeyInstr_iff, modKeyInstr_iff, modKeyInstr_iff, modKeyInstr_iff⟩⟩

end Sys2Proof
end

section
/-! The verdicts on event words (R85 to R87): reserved by code and payload alone, otherwise legal or illegal by
whether the block's state accepts the code. -/

namespace Sys2Proof

/-! ### Reserved encodings -/

/-- The event codes of R71. -/
def knownCodes : List Byte := [0x01#8, 0x02#8, 0x03#8, 0x04#8, 0x05#8, 0x06#8, 0x10#8, 0x11#8]

theorem mem_knownCodes_iff (c : Byte) : c ∈ knownCodes ↔ (isCtlCode c || isModCode c) = true := by
  revert c; decide

theorem isReservedWord_eventWord (c : Byte) (p : Word32) :
    isReservedWord (eventWord c p) = true ↔ c ∉ knownCodes ∨ (c ≠ 0x03#8 ∧ p ≠ 0#32) := by
  rw [isReservedWord, evCode_eventWord, evPayload_eventWord, mem_knownCodes_iff, Bool.or_eq_true,
    Bool.not_eq_true', Bool.not_eq_true, Bool.and_eq_true, decide_eq_true_eq, decide_eq_true_eq]

theorem not_isReservedWord_eventWord (c : Byte) (p : Word32) :
    isReservedWord (eventWord c p) = false ↔ c ∈ knownCodes ∧ (c = 0x03#8 ∨ p = 0#32) := by
  rw [← Bool.not_eq_true, isReservedWord_eventWord, not_or, not_not, not_and_or, not_not, not_not]

theorem senseOk_not_reserved (v : Word32) : isReservedWord (eventWord 0x03#8 v) = false :=
  (not_isReservedWord_eventWord _ v).mpr ⟨by decide, .inl rfl⟩

theorem decodeEvent_of_reserved (cs : CState) (ms : MState) {w : EventWord} (h : isReservedWord w = true) :
    decodeEvent cs ms w = .reservedEncoding := if_pos h

/-! ### Illegal events -/

/-- The state accepts an event of this code (R83, R84); MSTATE = 0b111 accepts `RESET` alone (R87). -/
def Accepts (cs : CState) (ms : MState) (c : Byte) : Prop :=
  c = 0x01#8 ∨ ms ≠ .reserved ∧
    ((c = 0x02#8 ∧ cs = .asleep) ∨
      ((c = 0x03#8 ∨ c = 0x04#8) ∧ cs = .awakeSampling) ∨
      (c = 0x05#8 ∧ cs = .awakeDeciding) ∨
      (c = 0x06#8 ∧ cs = .awakeTransmitting) ∨
      (c = 0x10#8 ∧ ms = .idle) ∨
      (c = 0x11#8 ∧ ms ≠ .idle))

/-- An event word is taken only where its code is accepted. -/
theorem TakenOn.accepts {cs : CState} {ms : MState} {w : EventWord} {i : Instr} (h : TakenOn cs ms w i) :
    Accepts cs ms (evCode w) := by
  unfold Accepts
  cases i with
  | reset => cases h; exact .inl rfl
  | senseOk v =>
    obtain ⟨hm, rfl, rfl⟩ := h
    simp [hm, senseOkWord]
  | wake | senseFail | tick | txDone =>
    obtain ⟨hm, rfl, rfl⟩ := h
    simp [hm, wakeWord_eq, senseFailWord_eq, tickWord_eq, txDoneWord_eq]
  | modStart | modHdrMarkEnd | modHdrSpaceEnd | modBitMarkEnd | modBitSpaceEnd | modFtrMarkEnd
  | modFtrSpaceEnd =>
    obtain ⟨rfl, rfl⟩ := h
    simp [modStartWord_eq, pulseEndWord_eq]
  | _ => exact h.elim

theorem decodeEvent_of_not_reserved (cs : CState) (ms : MState) {w : EventWord} (h : isReservedWord w = false) :
    decodeEvent cs ms w = .illegalEvent ∨ ∃ i, decodeEvent cs ms w = .legal i := by
  have hrow (o : Option Instr) : verdictOfRow o = .illegalEvent ∨ ∃ i, verdictOfRow o = .legal i := by
    cases o with
    | none => exact .inl rfl
    | some i => exact .inr ⟨i, rfl⟩
  unfold decodeEvent
  rw [if_neg (by simp [h])]
  split
  · exact .inl rfl
  · split <;> exact hrow _

theorem decodeEvent_of_not_accepts {cs : CState} {ms : MState} {w : EventWord} (hr : isReservedWord w = false)
    (h : ¬ Accepts cs ms (evCode w)) : decodeEvent cs ms w = .illegalEvent :=
  (decodeEvent_of_not_reserved cs ms hr).resolve_right fun ⟨_, hi⟩ => h (decodeEvent_legal hi).accepts

/-- Whether an event is legal is one condition on the state, where that condition is what its code asks for. -/
theorem decodeEvent_eq_ite {cs : CState} {ms : MState} {w : EventWord} {i : Instr} {p : Prop} [Decidable p]
    (hr : isReservedWord w = false) (htaken : p → TakenOn cs ms w i) (hne : ¬ p → ¬ Accepts cs ms (evCode w)) :
    decodeEvent cs ms w = if p then .legal i else .illegalEvent := by
  split
  case isTrue hp => exact decodeEvent_of_taken (htaken hp)
  case isFalse hp => exact decodeEvent_of_not_accepts hr (hne hp)

/-- Settles O3: reserved by `isReservedWord_eventWord`, legal by `decodeEvent_of_taken`, and illegal where `Accepts`
fails. -/
theorem eventWordVerdicts : Obligations.EventWordVerdicts := by
  refine ⟨eventWord_fields, fun cs ms c p => ⟨?reserved, ?reset, ?badState, ?control, ?idle, ?_, ?_, ?_, ?_, ?_, ?_⟩⟩
  case reserved => exact fun h => decodeEvent_of_reserved cs ms ((isReservedWord_eventWord c p).mpr h)
  case reset => exact decodeEvent_of_taken (i := .reset) resetWord_eq.symm
  case badState =>
    intro hc hp
    apply decodeEvent_of_not_accepts
    · exact (not_isReservedWord_eventWord c p).mpr ⟨List.mem_cons_of_mem _ hc, hp⟩
    · have hne : c ≠ 0x01#8 := by rintro rfl; exact absurd hc (by decide)
      simp [Accepts, hne]
  case control =>
    intro hm
    refine ⟨decodeEvent_eq_ite (by decide) (fun hc => ⟨hm, hc, wakeWord_eq.symm⟩) fun hc => ?_,
      decodeEvent_eq_ite (senseOk_not_reserved p) (fun hc => ⟨hm, hc, rfl⟩) fun hc => ?_,
      decodeEvent_eq_ite (by decide) (fun hc => ⟨hm, hc, senseFailWord_eq.symm⟩) fun hc => ?_,
      decodeEvent_eq_ite (by decide) (fun hc => ⟨hm, hc, tickWord_eq.symm⟩) fun hc => ?_,
      decodeEvent_eq_ite (by decide) (fun hc => ⟨hm, hc, txDoneWord_eq.symm⟩) fun hc => ?_,
      decodeEvent_eq_ite (by decide) (fun hc => ⟨hc, modStartWord_eq.symm⟩) fun hc => ?_⟩
    all_goals simp [Accepts, hc]
  case idle => exact decodeEvent_of_not_accepts (by decide) (by simp [Accepts])
  all_goals exact decodeEvent_of_taken ⟨rfl, pulseEndWord_eq.symm⟩

end Sys2Proof
end

section
/-! Taking a word that the decoder rejects raises its fault and nothing else (R86, R87, R200); taking any other is
the step of the instruction it decodes to (R85). -/

namespace Sys2Proof.Machine

/-! ### One word -/

section
variable {s : State} {w : EventWord} (hf : s.fault = none)
include hf

theorem takeWord_of_legal {i : Instr} (hd : decodeEvent s.cstate s.mstate w = .legal i) :
    takeWord w s = exec i (expire i s) := by
  simp [takeWord, hf, hd]

theorem takeWord_of_reserved (hr : isReservedWord w = true) :
    takeWord w s = .next { s with fault := some .reservedEncoding } := by
  simp [takeWord, hf, decodeEvent_of_reserved _ _ hr, carryOut, raise]

theorem takeWord_of_not_accepts (hr : isReservedWord w = false)
    (h : ¬ Accepts s.cstate s.mstate (evCode w)) :
    takeWord w s = .next { s with fault := some .illegalEvent } := by
  simp [takeWord, hf, decodeEvent_of_not_accepts hr h, carryOut, raise]

end

/-- With MSTATE = 0b111 no word but that of `RESET` is accepted (R87). -/
theorem not_accepts_reserved {cs : CState} {w : EventWord} (hw : w ≠ resetWord) (hr : isReservedWord w = false) :
    ¬ Accepts cs .reserved (evCode w) := by
  rintro (hc | ⟨hm, -⟩)
  · rw [← eventWord_fields w, hc] at hw hr
    rcases ((not_isReservedWord_eventWord _ _).mp hr).2 with h3 | hp
    · exact absurd h3 (by decide)
    · exact hw (by rw [hp, resetWord_eq])
  · exact hm rfl

/-- With MSTATE = 0b111 a step with nothing arriving raises `IllegalEvent` too (R87, log entry 8). -/
theorem step_badState {s : State} (hm : s.mstate = .reserved) (hf : s.fault = none) (hv : s.cfg.valid = true)
    (hp : s.pending = none) (hi : s.inbox = []) : step s = .next { s with fault := some .illegalEvent } := by
  rw [step_of_valid hv, due_quiet hi hp hf, arrive_quiet hi, timersDue, if_pos hm, ← raise_of_none _ _ hf]
  rfl

/-- Settles O12: each event's code is one that `Accepts` refuses in the states the clause names. -/
theorem unacceptedEventsFault : Obligations.UnacceptedEventsFault := by
  intro s hf
  refine ⟨fun hc => takeWord_of_not_accepts hf (by decide) ?_,
    fun v hc => takeWord_of_not_accepts hf (senseOk_not_reserved v) ?_,
    fun hc => takeWord_of_not_accepts hf (by decide) ?_, fun hc => takeWord_of_not_accepts hf (by decide) ?_,
    fun hc => takeWord_of_not_accepts hf (by decide) ?_, fun hc => takeWord_of_not_accepts hf (by decide) ?_,
    fun hm => takeWord_of_not_accepts hf (by decide) ?pulseEnd,
    fun hm w hw hr => takeWord_of_not_accepts hf hr ?badState,
    fun hm hv hp hi => step_badState hm hf hv hp hi⟩
  case badState => rw [hm]; exact not_accepts_reserved hw hr
  case pulseEnd => rcases hm with hm | hm <;> simp [Accepts, hm, pulseEndWord_eq]
  all_goals
    simp [Accepts, hc, wakeWord_eq, senseOkWord, senseFailWord_eq, tickWord_eq, txDoneWord_eq, modStartWord_eq]

/-- A code that R86 lists is none of R71's. -/
theorem not_mem_knownCodes {c : Byte} (h : c.toNat = 0 ∨ (7 ≤ c.toNat ∧ c.toNat ≤ 0x0F) ∨ 0x12 ≤ c.toNat) :
    c ∉ knownCodes := by
  revert c; decide

/-- Settles O11: such a word is reserved by its code or its payload. -/
theorem reservedWordsFault : Obligations.ReservedWordsFault := by
  intro s c p hf h
  apply takeWord_of_reserved hf
  rw [isReservedWord_eventWord]
  rcases h with hc | hc | hc | hp
  · exact .inl (not_mem_knownCodes (.inl hc))
  · exact .inl (not_mem_knownCodes (.inr (.inl hc)))
  · exact .inl (not_mem_knownCodes (.inr (.inr hc)))
  · exact .inr hp

/-! ### One step -/

/-- With nothing posted, the next entry of the stimulus is what a step takes, unless it brings `RESET`. -/
theorem step_of_input {s : State} {inp : Input} {rest : List Input} (hv : s.cfg.valid = true)
    (hf : s.fault = none) (hp : s.pending = none) (hi : s.inbox = inp :: rest) (hr : bringsReset inp = false) :
    step s = runDue (inputDue s inp) { s with inbox := dropInput (inp :: rest) } := by
  have hposted : nextPosted s = none := by rw [nextPosted, hp, ite_self]
  have hdue : due s = inputDue s inp := by simp [due, hposted, hi, hr, hf]
  have harrive : inboxAfter s = dropInput (inp :: rest) := by simp [inboxAfter, hposted, hi, hr, hf]
  rw [step_of_valid hv, hdue, arrive, harrive]

theorem dropInput_events (w : EventWord) (ws : List EventWord) (rest : List Input) :
    dropInput (.events (w :: ws) :: rest) = (ws.take 1).map .surplus ++ rest := by
  cases ws <;> rfl

theorem bringsReset_events {ws : List EventWord} (h : resetWord ∉ ws) : bringsReset (.events ws) = false := by
  simpa [bringsReset] using h

/-- Settles O5, by `step_of_input` for each kind of entry. -/
theorem stepRunsTheDecodedInstruction : Obligations.StepRunsTheDecodedInstruction := by
  intro s hv hf hp
  refine ⟨fun w ws rest i hi hr hd => ?events, fun u rest i hi hd => ?unit, fun c rest hi => ?symbol⟩
  case events =>
    rw [step_of_input hv hf hp hi (bringsReset_events hr), dropInput_events]
    exact takeWord_of_legal (s := { s with inbox := (ws.take 1).map .surplus ++ rest }) hf hd
  case unit =>
    rw [step_of_input hv hf hp hi rfl]
    exact congrArg (carryOut · _) hd
  case symbol => exact step_of_input hv hf hp hi rfl

/-! ### Words written out -/

/-- Settles O4: event words in states that take them (`decodeEvent_of_taken`), and code words that the encoder
writes (`decodeOfEncodeIsTheInstruction`). -/
theorem sampleWordsDecode : Obligations.SampleWordsDecode := by
  refine ⟨decodeEvent_of_taken ⟨MState.noConfusion, rfl, rfl⟩, decodeEvent_of_taken ⟨MState.noConfusion, rfl, rfl⟩,
    decodeEvent_of_taken ⟨MState.noConfusion, rfl, rfl⟩, decodeEvent_of_taken ⟨rfl, rfl⟩,
    decodeEvent_of_reserved _ _ (by decide), decodeOfEncodeIsTheInstruction (.senseOk 25000#32) rfl, by decide,
    decodeOfEncodeIsTheInstruction (.rev8 0xA1#8) rfl, decodeOfEncodeIsTheInstruction .symBit1 rfl⟩

end Sys2Proof.Machine
end

section
/-! An event word taken in a state that accepts it: the effect of its instruction, with no fault (R85, R202), and the
posted event as such a word (R206). -/

namespace Sys2Proof.Machine

/-! ### The time an expiry event stands for -/

theorem expire_cstate (i : Instr) (s : State) : (expire i s).cstate = s.cstate := by
  rcases expire_cases i s with e | e | e <;> rw [e] <;> rfl

theorem expire_mstate (i : Instr) (s : State) : (expire i s).mstate = s.mstate := by
  rcases expire_cases i s with e | e | e <;> rw [e] <;> rfl

theorem expire_fault (i : Instr) (s : State) : (expire i s).fault = s.fault := by
  rcases expire_cases i s with e | e | e <;> rw [e] <;> rfl

theorem Live.expire {s : State} (h : Live s) (i : Instr) : Live (expire i s) :=
  ⟨(expire_fault i s).trans h.1, by rw [expire_mstate]; exact h.2⟩

/-! ### Effects -/

/-- What the instruction of an event word does where it is accepted; no event word is a unit or a symbol (R89). -/
def takenEffect : Instr → State → State
  | .reset, s => sampleEntry (resetLoads s)
  | .wake, s => wakeEffect s
  | .senseOk v, s => senseOkEffect v s
  | .senseFail, s => senseFailEffect s
  | .tick, s => tickEffect s
  | .txDone, s => txDoneEffect s
  | .modStart, s => modStartEffect s
  | .modHdrMarkEnd, s => startSpace .hdrSpace s.cfg.hdrSpace s
  | .modHdrSpaceEnd, s => startMark .bitMark s.cfg.bitMark s
  | .modBitMarkEnd, s => startSpace .bitSpace (bitSpaceUnits s.cfg (sentBit s.frame s.mcopy s.mbit)) s
  | .modBitSpaceEnd, s => bitSpaceEndEffect s
  | .modFtrMarkEnd, s => startSpace .ftrSpace s.cfg.ftrSpace s
  | .modFtrSpaceEnd, s => ftrSpaceEndEffect s
  | _, s => s

theorem exec_of_taken {s : State} {w : EventWord} {i : Instr} (hl : Live s)
    (h : TakenOn s.cstate s.mstate w i) : exec i s = .next (takenEffect i s) := by
  cases i with
  | reset => rfl
  | wake | senseOk | senseFail | tick | txDone =>
    obtain ⟨-, hc, -⟩ := h
    exact gate_live s _ _ hl hc
  | modStart | modHdrMarkEnd | modHdrSpaceEnd | modBitMarkEnd | modBitSpaceEnd | modFtrMarkEnd
  | modFtrSpaceEnd =>
    obtain ⟨hm, -⟩ := h
    exact gate_live s _ _ hl hm
  | _ => exact h.elim

theorem takeWord_of_taken {s : State} {w : EventWord} {i : Instr} (hl : Live s)
    (h : TakenOn s.cstate s.mstate w i) : takeWord w s = .next (takenEffect i (expire i s)) := by
  rw [takeWord_of_legal hl.1 (decodeEvent_of_taken h)]
  exact exec_of_taken (hl.expire i) (by rw [expire_cstate, expire_mstate]; exact h)

theorem tickEffect_of_trigger {s : State} (ht : trigger s (truncC s.sampleMc) = true)
    (hv : s.cfg.valid = true) : tickEffect s =
      { s with
        frame := makeFrame s.cfg (clampT s.cfg (truncC s.sampleMc))
        cstate := .awakeTransmitting, pending := some .modStart } := by
  obtain ⟨-, hrange, -⟩ := valid_temps hv
  rw [tickEffect, if_pos ht, transmitEffect_eq hrange]

theorem tickEffect_of_not_trigger {s : State} (ht : trigger s (truncC s.sampleMc) = false) :
    tickEffect s = sleepEntry (takePosted .tick s) := by
  rw [tickEffect, if_neg (by simp [ht])]

/-- With valid parameters the clamp keeps the encoder in its contract (R116), so no accepted event faults. -/
theorem takenEffect_fault {i : Instr} {s : State} (hf : s.fault = none) (hv : s.cfg.valid = true) :
    (takenEffect i s).fault = none := by
  cases i with
  | reset => rfl
  | tick =>
    cases ht : trigger s (truncC s.sampleMc) with
    | true => exact (congrArg State.fault (tickEffect_of_trigger ht hv)).trans hf
    | false => exact (congrArg State.fault (tickEffect_of_not_trigger ht)).trans hf
  | modBitSpaceEnd =>
    change (bitSpaceEndEffect s).fault = none
    unfold bitSpaceEndEffect
    split <;> exact hf
  | modFtrSpaceEnd =>
    change (ftrSpaceEndEffect s).fault = none
    unfold ftrSpaceEndEffect
    split <;> exact hf
  | _ => exact hf

theorem takeWord_faultless {s : State} {w : EventWord} {i : Instr} (hl : Live s) (hv : s.cfg.valid = true)
    (h : TakenOn s.cstate s.mstate w i) : ∃ t, takeWord w s = .next t ∧ t.fault = none :=
  ⟨_, takeWord_of_taken hl h,
    takenEffect_fault ((expire_fault i s).trans hl.1) ((congrArg Params.valid (expire_cfg i s)).trans hv)⟩

/-! ### Posted events -/

/-- Settles O6: with no `RESET` and no second event, the next entry of the stimulus leaves the posted event its turn. -/
theorem postedEventIsTheNextStep : Obligations.PostedEventIsTheNextStep := by
  intro s p hv hf hp hreset hsurplus
  have hposted : nextPosted s = some p := by simp [nextPosted, hsurplus, hp]
  have hdue : due s = .word (postedWord p) := by simp [due, hreset, hf, hposted]
  have hinbox : inboxAfter s = dropExplicit (postedWord p) s.inbox := by simp [inboxAfter, hreset, hf, hposted]
  rw [step_of_valid hv, hdue, arrive, hinbox]
  rfl

/-- In step with the control FSM and the modulator, a posted event is accepted. -/
theorem LoopInv.posted_taken {s : State} (h : LoopInv s) (hm : s.mstate ≠ .reserved) {p : Posted}
    (hp : s.pending = some p) : ∃ i, TakenOn s.cstate s.mstate (postedWord p) i := by
  cases p with
  | tick => exact ⟨.tick, hm, h.tick.mp hp, rfl⟩
  | modStart => exact ⟨.modStart, h.idle_of_posted (.inl hp), rfl⟩
  | txDone => exact ⟨.txDone, hm, h.posted (.inr hp), rfl⟩

/-! ### Nothing arriving -/

/-- While a pulse is timed its end is accepted. -/
theorem exists_taken_pulseEnd (cs : CState) {ms : MState} (hi : ms ≠ .idle) (hr : ms ≠ .reserved) :
    ∃ i, TakenOn cs ms pulseEndWord i := by
  cases ms with
  | idle => exact absurd rfl hi
  | hdrMark => exact ⟨.modHdrMarkEnd, rfl, rfl⟩
  | hdrSpace => exact ⟨.modHdrSpaceEnd, rfl, rfl⟩
  | bitMark => exact ⟨.modBitMarkEnd, rfl, rfl⟩
  | bitSpace => exact ⟨.modBitSpaceEnd, rfl, rfl⟩
  | ftrMark => exact ⟨.modFtrMarkEnd, rfl, rfl⟩
  | ftrSpace => exact ⟨.modFtrSpaceEnd, rfl, rfl⟩
  | reserved => exact absurd rfl hr

/-- The timers bring no event that the state does not accept. -/
theorem runDue_timersDue_faultless {s : State} (hl : Live s) (hv : s.cfg.valid = true) :
    ∃ t, runDue (timersDue s) s = .next t ∧ t.fault = none := by
  rcases timersDue_cases s with
    ⟨hr, -⟩ | ⟨hr, hi, -, e⟩ | ⟨-, -, -, e⟩ | ⟨-, hc, -, -, e⟩ | ⟨-, -, -, -, e⟩ | ⟨-, -, e⟩ | ⟨-, -, e⟩
  · exact absurd hr hl.2
  · obtain ⟨i, htaken⟩ := exists_taken_pulseEnd s.cstate hi hr
    rw [e]
    exact takeWord_faultless hl hv htaken
  · rw [e]; exact ⟨elapseUnit s, rfl, hl.1⟩
  · rw [e]; exact takeWord_faultless (i := .wake) hl hv ⟨hl.2, hc, rfl⟩
  · rw [e]; exact ⟨elapseSecond s, rfl, hl.1⟩
  · rw [e]; exact ⟨elapseWait s, rfl, hl.1⟩
  · rw [e]; exact ⟨s, rfl, hl.1⟩

/-- Settles O48: the next step takes the posted event, which the loop invariant has accepted, or what the timers
bring. -/
theorem blockNeverFaultsByItself : Obligations.BlockNeverFaultsByItself := by
  intro s hv hcore hloop hf hi
  have hl : Live s := ⟨hf, hcore.legal⟩
  cases hp : s.pending with
  | some p =>
    obtain ⟨i, htaken⟩ := hloop.posted_taken hl.2 hp
    rw [postedEventIsTheNextStep s p hv hf hp (by simp [hi]) (by simp [hi])]
    exact takeWord_faultless hl hv htaken
  | none =>
    rw [step_of_valid hv, due_quiet hi hp hf, arrive_quiet hi]
    exact runDue_timersDue_faultless hl hv

end Sys2Proof.Machine
end

section
/-! The control FSM's instructions (R101 to R107) and the two units that decide (R104, R105). -/

namespace Sys2Proof.Machine

theorem decodeEvent_of_payload (cs : CState) (ms : MState) {c : Byte} {p : Word32} (hc : c ≠ 0x03#8)
    (hp : p ≠ 0#32) : decodeEvent cs ms (eventWord c p) = .reservedEncoding :=
  decodeEvent_of_reserved cs ms ((isReservedWord_eventWord c p).mpr (.inr ⟨hc, hp⟩))

/-! ### Sampling -/

/-- Settles O14: the gate of WAKE, and its key. -/
theorem wakeCountsAndSamples : Obligations.WakeCountsAndSamples := fun s hl =>
  ⟨fun hc => gate_live s (wakeEffect s) _ hl hc, fun hc => gate_illegal s _ _ hl.1 (.inr hc),
    decodeEvent_of_taken ⟨hl.2, rfl, rfl⟩, fun _ hp => decodeEvent_of_payload _ _ (by decide) hp⟩

/-- Settles O15: the gate of SENSE_OK, and its key. -/
theorem senseOkHoldsTheSample : Obligations.SenseOkHoldsTheSample := fun s v hl =>
  ⟨fun hc => gate_live s (senseOkEffect v s) _ hl hc, fun hc => gate_illegal s _ _ hl.1 (.inr hc),
    decodeEvent_of_taken ⟨hl.2, rfl, rfl⟩⟩

/-- Settles O16: the gate of SENSE_FAIL, and its key. -/
theorem senseFailSleeps : Obligations.SenseFailSleeps := fun s hl =>
  ⟨fun hc => gate_live s (senseFailEffect s) _ hl hc, fun hc => gate_illegal s _ _ hl.1 (.inr hc),
    decodeEvent_of_taken ⟨hl.2, rfl, rfl⟩, fun _ hp => decodeEvent_of_payload _ _ (by decide) hp⟩

/-! ### Deciding -/

/-- Settles O32, by the sign of the sample: `truncC_eq` gives the floor of its absolute value. -/
theorem truncationIsTowardZero : Obligations.TruncationIsTowardZero := by
  intro s v hl
  have hbounds := truncC_bounds v
  refine ⟨truncC v, gate_live s _ _ hl trivial, ?_⟩
  rw [truncC_eq] at hbounds ⊢
  split at hbounds
  case isTrue hpos =>
    rw [if_pos hpos, abs_of_nonneg hpos, abs_of_nonneg (by omega), abs_of_nonneg (by omega)]
    omega
  case isFalse hneg =>
    rw [if_neg hneg, abs_of_neg (not_le.mp hneg), abs_of_nonpos (by omega), abs_of_nonpos (by omega)]
    omega

theorem trigger_iff (s : State) (t : Int) : trigger s t = true ↔
    (s.reported = false ∨ (s.cfg.delta : Int) ≤ |t - s.lastC.toInt| ∨ s.cfg.ratio ≤ s.cycles) := by
  have hdelta : (t - s.lastC.toInt).natAbs ≥ s.cfg.delta ↔ (s.cfg.delta : Int) ≤ |t - s.lastC.toInt| := by
    rw [Int.abs_eq_natAbs, ge_iff_le, Nat.cast_le]
  rw [trigger, deltaOk, timeOk, Bool.or_eq_true, Bool.or_eq_true, Bool.not_eq_true', decide_eq_true_iff,
    decide_eq_true_iff, hdelta, or_assoc, ge_iff_le]

/-- Settles O33: the unit's output is the condition of `trigger_iff`. -/
theorem triggerRule : Obligations.TriggerRule := by
  intro s t hl
  rw [← Bool.eq_iff_iff.mpr ((trigger_iff s t).trans decide_eq_true_iff.symm)]
  exact gate_live s _ _ hl trivial

/-- Settles O17: the two branches of `tickEffect`, by `trigger_iff`. -/
theorem tickDecides : Obligations.TickDecides := by
  intro s hl hv
  refine ⟨fun hc => ?_, fun hc => gate_illegal s _ _ hl.1 (.inr hc), decodeEvent_of_taken ⟨hl.2, rfl, rfl⟩⟩
  have hexec : exec .tick s = .next (tickEffect s) := gate_live s _ _ hl hc
  rw [hexec]
  refine ⟨fun ht => ?_, fun ht => ?_⟩
  · rw [tickEffect_of_trigger ((trigger_iff s _).mpr ht) hv]
    rfl
  · rw [tickEffect_of_not_trigger (Bool.eq_false_of_not_eq_true (mt (trigger_iff s _).mp ht))]
    rfl

/-- Settles O18: the truncated sample fits LAST_C (`truncC_roundtrip`). -/
theorem txDoneRecordsTheReport : Obligations.TxDoneRecordsTheReport := fun s hl =>
  ⟨fun hc => ⟨_, truncC_roundtrip s.sampleMc, gate_live s (txDoneEffect s) _ hl hc⟩,
    fun hc => gate_illegal s _ _ hl.1 (.inr hc), decodeEvent_of_taken ⟨hl.2, rfl, rfl⟩⟩

end Sys2Proof.Machine
end

section
/-! The cycles of the control FSM, event word by event word (R110, R111, R113, R114). -/

namespace Sys2Proof.Machine

/-! ### Event words one after the other -/

theorem takeWords_cons {w : EventWord} {s t : State} (h : takeWord w s = .next t) (ws : List EventWord) :
    takeWords (w :: ws) s = takeWords ws t := by
  rw [takeWords, h]

theorem takeWords_append {vs : List EventWord} {s t : State} (h : takeWords vs s = .next t)
    (ws : List EventWord) : takeWords (vs ++ ws) s = takeWords ws t := by
  induction vs generalizing s with
  | nil => cases h; rfl
  | cons v vs ih =>
    rw [takeWords] at h
    split at h
    case h_1 u hu => rw [List.cons_append, takeWords_cons hu, ih h]
    case h_2 => cases h
    case h_3 => cases h

/-! ### From the answer of the sensor to the decision -/

section
variable {s : State} (hl : Live s)
include hl

theorem takeWord_wake (hc : s.cstate = .asleep) : takeWord wakeWord s = .next (wakeEffect (finishSleep s)) :=
  takeWord_of_taken (i := .wake) hl ⟨hl.2, hc, rfl⟩

theorem takeWords_sample (hc : s.cstate = .awakeSampling) (v : Word32) (ws : List EventWord) :
    takeWords (senseOkWord v :: tickWord :: ws) s = takeWords ws (tickEffect (senseOkEffect v s)) := by
  have hsense : takeWord (senseOkWord v) s = .next (senseOkEffect v s) :=
    takeWord_of_taken (i := .senseOk v) hl ⟨hl.2, hc, rfl⟩
  have htick : takeWord tickWord (senseOkEffect v s) = .next (tickEffect (senseOkEffect v s)) :=
    takeWord_of_taken (i := .tick) hl ⟨hl.2, rfl, rfl⟩
  rw [takeWords_cons hsense, takeWords_cons htick]

end

theorem tickEffect_cstate {s : State} (hv : s.cfg.valid = true) :
    (tickEffect s).cstate = if trigger s (truncC s.sampleMc) then .awakeTransmitting else .asleep := by
  cases ht : trigger s (truncC s.sampleMc) with
  | true => rw [tickEffect_of_trigger ht hv]; rfl
  | false => rw [tickEffect_of_not_trigger ht]; rfl

/-- The decision leaves the Decision State as it is. -/
theorem tickEffect_decisionState {s : State} (hv : s.cfg.valid = true) :
    (tickEffect s).reported = s.reported ∧ (tickEffect s).lastC = s.lastC ∧ (tickEffect s).cycles = s.cycles := by
  cases ht : trigger s (truncC s.sampleMc) with
  | true => rw [tickEffect_of_trigger ht hv]; exact ⟨rfl, rfl, rfl⟩
  | false => rw [tickEffect_of_not_trigger ht]; exact ⟨rfl, rfl, rfl⟩

/-- What a sample leads to where nothing has been reported (R110). -/
theorem tickEffect_of_first {s : State} (hv : s.cfg.valid = true) (hr : s.reported = false) (v : Word32) :
    tickEffect (senseOkEffect v s) =
      { senseOkEffect v s with
        frame := makeFrame s.cfg (clampT s.cfg (truncC v))
        cstate := .awakeTransmitting, pending := some .modStart } :=
  tickEffect_of_trigger ((trigger_iff (senseOkEffect v s) _).mpr (.inl hr)) hv

/-- Settles O55, by `tickEffect_of_first`. -/
theorem firstSampleTransmits : Obligations.FirstSampleTransmits := by
  intro s v hl hv hc hr
  refine ⟨_, takeWords_sample hl hc v [], ?_⟩
  rw [tickEffect_of_first hv hr]
  exact ⟨rfl, rfl, rfl, hl.1⟩

/-! ### Hysteresis -/

theorem trigger_iff_of_reported {s : State} (hr : s.reported = true) (hc : s.cycles < s.cfg.ratio) (t : Int) :
    trigger s t = true ↔ (s.cfg.delta : Int) ≤ |t - s.lastC.toInt| := by
  simp [trigger_iff, hr, not_le.mpr hc]

/-- Settles O56: the trigger is `trigger_iff_of_reported`, which sees of the sample its whole degrees alone. -/
theorem hysteresisComparesWholeDegrees : Obligations.HysteresisComparesWholeDegrees := by
  intro s v hl hv hc hr hcycles
  have hdecides (u : Word32) : (tickEffect (senseOkEffect u s)).cstate =
      if trigger s (truncC u) then .awakeTransmitting else .asleep := tickEffect_cstate hv
  refine ⟨_, takeWords_sample hl hc v [], ?_, ?_, fun u t' hu ht' => ?_⟩
  · rw [hdecides, ← truncC, ← trigger_iff_of_reported hr hcycles]
    cases trigger s (truncC v) <;> decide
  · rw [hdecides]
    cases trigger s (truncC v) <;> decide
  · rw [takeWords_sample hl hc u []] at ht'
    cases ht'
    rw [hdecides, hdecides, truncC, truncC, hu]

/-! ### Cadence -/

theorem trigger_iff_of_small_change {s : State} {t : Int} (hr : s.reported = true)
    (hd : |t - s.lastC.toInt| < (s.cfg.delta : Int)) : trigger s t = true ↔ s.cfg.ratio ≤ s.cycles := by
  simp [trigger_iff, hr, not_le.mpr hd]

/-- The state that decides on sample v after a wake in s. -/
def wokenWith (v : Word32) (s : State) : State := senseOkEffect v (wakeEffect (finishSleep s))

theorem takeWords_wake_sample {s : State} (hl : Live s) (hc : s.cstate = .asleep) (v : Word32) :
    takeWords [wakeWord, senseOkWord v, tickWord] s = .next (tickEffect (wokenWith v s)) := by
  rw [takeWords_cons (takeWord_wake hl hc)]
  exact takeWords_sample (s := wakeEffect (finishSleep s)) hl rfl v []

/-- Settles O57: without a delta trigger only the count decides, and the wake increment does not wrap. -/
theorem cadenceCountsToTheRatio : Obligations.CadenceCountsToTheRatio := by
  intro s v hl hv hc hr hwrap hdelta
  have hcycles : (wokenWith v s).cycles = s.cycles + 1 := Nat.mod_eq_of_lt hwrap
  have htrigger : trigger (wokenWith v s) (truncC v) = true ↔ s.cfg.ratio ≤ s.cycles + 1 :=
    hcycles ▸ trigger_iff_of_small_change (s := wokenWith v s) hr hdelta
  obtain ⟨hreported, hlast, hkept⟩ := tickEffect_decisionState (s := wokenWith v s) hv
  refine ⟨_, takeWords_wake_sample hl hc v, hkept.trans hcycles, hlast, hreported.trans hr, fun hlow => ?_,
    fun hratio => ?_⟩
  · rw [tickEffect_of_not_trigger (Bool.eq_false_of_not_eq_true (mt htrigger.mp (not_le.mpr hlow)))]
    exact ⟨rfl, List.append_assoc ..⟩
  · exact (tickEffect_cstate (s := wokenWith v s) hv).trans (if_pos (htrigger.mpr hratio))

/-! ### A failed sample -/

/-- Settles O58: of the two effects, the increment is written by WAKE and taken back only with P_FAIL_UNDO_INC. -/
theorem sensorFailureIsIsolated : Obligations.SensorFailureIsIsolated := by
  intro s hl hc
  have hwake := takeWord_wake hl hc
  have hfail : takeWord senseFailWord (wakeEffect (finishSleep s)) =
      .next (senseFailEffect (wakeEffect (finishSleep s))) :=
    takeWord_of_taken (i := .senseFail) hl ⟨hl.2, rfl, rfl⟩
  refine ⟨_, (takeWords_cons hwake _).trans (takeWords_cons hfail []), rfl, rfl, rfl, rfl, rfl, rfl, rfl, rfl, hl.1,
    List.append_assoc ..⟩

end Sys2Proof.Machine
end

section
/-! The pulse train of a transmission, PULSE_END by PULSE_END (R177): the modulator's state says which pulses of the
train are still to come, and each PULSE_END sends the next of them. -/

namespace Sys2Proof.Machine

/-! ### The pulses still to come -/

/-- The pulses of copy c from bit k on, the footer's with them. -/
def copyFrom (p : Params) (f : Frame) (c : Bool) (k : Nat) : List Pulse :=
  ((List.finRange 48).drop k).flatMap (fun j => symBit p (sentBit f c j)) ++ symFtr p

/-- The pulses after copy c. -/
def afterCopy (p : Params) (f : Frame) (c : Bool) : List Pulse := if c then [] else copyPulses p f true

/-- The pulses that follow the one being timed, to the end of the transmission (R30, R165, R166). -/
def restOfTrain (s : State) : List Pulse :=
  match s.mstate with
  | .idle | .reserved => []
  | .hdrMark =>
    space s.cfg.hdrSpace :: copyFrom s.cfg s.frame s.mcopy s.mbit ++ afterCopy s.cfg s.frame s.mcopy
  | .hdrSpace => copyFrom s.cfg s.frame s.mcopy s.mbit ++ afterCopy s.cfg s.frame s.mcopy
  | .bitMark =>
    space (bitSpaceUnits s.cfg (sentBit s.frame s.mcopy s.mbit)) ::
      copyFrom s.cfg s.frame s.mcopy (s.mbit + 1) ++ afterCopy s.cfg s.frame s.mcopy
  | .bitSpace => copyFrom s.cfg s.frame s.mcopy (s.mbit + 1) ++ afterCopy s.cfg s.frame s.mcopy
  | .ftrMark => space s.cfg.ftrSpace :: afterCopy s.cfg s.frame s.mcopy
  | .ftrSpace => afterCopy s.cfg s.frame s.mcopy

theorem copyPulses_eq (p : Params) (f : Frame) (c : Bool) :
    copyPulses p f c = mark p.hdrMark :: space p.hdrSpace :: copyFrom p f c 0 := rfl

theorem symBit_eq (p : Params) (b : Bool) : symBit p b = [mark p.bitMark, space (bitSpaceUnits p b)] := by
  cases b <;> rfl

theorem copyFrom_bit (p : Params) (f : Frame) (c : Bool) (k : Fin 48) :
    copyFrom p f c k =
      mark p.bitMark :: space (bitSpaceUnits p (sentBit f c k)) :: copyFrom p f c (k + 1) := by
  have hdrop : (List.finRange 48).drop k = k :: (List.finRange 48).drop (k + 1) := by
    rw [List.drop_eq_getElem_cons (by simp), List.getElem_finRange]
    rfl
  rw [copyFrom, hdrop, List.flatMap_cons, symBit_eq]
  rfl

theorem copyFrom_last (p : Params) (f : Frame) (c : Bool) :
    copyFrom p f c 48 = [mark p.ftrMark, space p.ftrSpace] := by
  have hdrop : (List.finRange 48).drop 48 = [] := List.drop_eq_nil_of_le (by simp)
  rw [copyFrom, hdrop]
  rfl

theorem length_copyPulses (p : Params) (f : Frame) (c : Bool) : (copyPulses p f c).length = 100 := by
  simp [copyPulses, symHdr, symFtr, symBit_eq, List.length_flatMap]

theorem length_pulseTrain (p : Params) (f : Frame) : (pulseTrain p f).length = 200 := by
  rw [pulseTrain, List.length_append, length_copyPulses, length_copyPulses]

/-- MOD_START sends pulse 0 of the train, and the rest is to come. -/
theorem pulseTrain_eq (s : State) :
    pulseTrain s.cfg s.frame = mark s.cfg.hdrMark :: restOfTrain (modStartEffect s) := rfl

/-! ### One PULSE_END -/

/-- A pulse is being sent, and the carrier is as R30's column has it. -/
structure Sending (s : State) : Prop where
  live : Live s
  busy : s.mstate ≠ .idle
  carrier : s.carrierEn = carrierOf s.mstate

/-- t is s after the pulses of ps have begun, with only the registers of the train moved. -/
def Sent (s : State) (ps : List Pulse) (t : State) : Prop :=
  ∃ (m : MState) (c : Bool) (k : Fin 48) (d : Nat) (e : Bool) (φ : Rat), t =
    { s with
      mstate := m, mcopy := c, mbit := k, mtimer := d, carrierEn := e, cphase := φ
      trace := s.trace ++ ps.map .pulse }

theorem Sent.nil (s : State) : Sent s [] s :=
  ⟨s.mstate, s.mcopy, s.mbit, s.mtimer, s.carrierEn, s.cphase, by rw [List.map_nil, List.append_nil]⟩

theorem Sent.trans {s t u : State} {ps qs : List Pulse} (h : Sent s ps t) (h' : Sent t qs u) :
    Sent s (ps ++ qs) u := by
  obtain ⟨m, c, k, d, e, φ, rfl⟩ := h
  obtain ⟨m', c', k', d', e', φ', rfl⟩ := h'
  exact ⟨m', c', k', d', e', φ', by simp⟩

/-- After s the state t sends q, the first of the pulses still to come. -/
structure Sends (s : State) (q : Pulse) (t : State) : Prop where
  sent : Sent s [q] t
  sending : Sending t
  rest : restOfTrain s = q :: restOfTrain t

/-- The rest of the pulse being timed passes unseen. -/
theorem Sends.of_finishPulse {s t : State} {q : Pulse} (h : Sends (finishPulse s) q t) : Sends s q t :=
  ⟨h.sent, h.sending, h.rest⟩

section
variable {s : State} (hl : Live s)
include hl

theorem startMark_sends {m : MState} {d : Nat} (c : Bool) (k : Fin 48) (hm : carrierOf m = true)
    (hrest : restOfTrain s = mark d :: restOfTrain (startMark m d { s with mcopy := c, mbit := k })) :
    Sends s (mark d) (startMark m d { s with mcopy := c, mbit := k }) where
  sent := ⟨m, c, k, d, true, 0, rfl⟩
  sending :=
    { live := ⟨hl.1, by rintro rfl; cases hm⟩
      busy := by rintro rfl; cases hm
      carrier := hm.symm }
  rest := hrest

theorem startSpace_sends {m : MState} {d : Nat} (hi : m ≠ .idle) (hr : m ≠ .reserved)
    (hm : carrierOf m = false) (hrest : restOfTrain s = space d :: restOfTrain (startSpace m d s)) :
    Sends s (space d) (startSpace m d s) where
  sent := ⟨m, s.mcopy, s.mbit, d, false, s.cphase, rfl⟩
  sending := ⟨⟨hl.1, hr⟩, hi, hm.symm⟩
  rest := hrest

theorem bitSpaceEnd_sends (hm : s.mstate = .bitSpace) : ∃ q, Sends s q (bitSpaceEndEffect s) := by
  unfold bitSpaceEndEffect
  split
  case isTrue hk =>
    have hbit := copyFrom_bit s.cfg s.frame s.mcopy ⟨s.mbit.val + 1, by omega⟩
    refine ⟨_, startMark_sends hl s.mcopy ⟨s.mbit.val + 1, by omega⟩ rfl ?_⟩
    rw [restOfTrain, hm]
    exact congrArg (· ++ afterCopy s.cfg s.frame s.mcopy) hbit
  case isFalse hk =>
    refine ⟨_, startMark_sends hl s.mcopy s.mbit rfl ?_⟩
    have hlast : s.mbit.val + 1 = 48 := by have := s.mbit.isLt; omega
    rw [restOfTrain, hm]
    exact congrArg (· ++ afterCopy s.cfg s.frame s.mcopy) (hlast ▸ copyFrom_last s.cfg s.frame s.mcopy)

theorem ftrSpaceEnd_sends (hm : s.mstate = .ftrSpace) (hrest : restOfTrain s ≠ []) :
    ∃ q, Sends s q (ftrSpaceEndEffect s) := by
  have hafter : restOfTrain s = afterCopy s.cfg s.frame s.mcopy := by rw [restOfTrain, hm]
  unfold ftrSpaceEndEffect
  split
  case isTrue hcopy =>
    refine ⟨_, startMark_sends hl true 0 rfl ?_⟩
    rw [hafter, hcopy]
    exact (List.append_nil _).symm
  case isFalse hcopy =>
    rw [Bool.eq_true_of_not_eq_false hcopy] at hafter
    exact absurd hafter hrest

/-- While pulses are to come, PULSE_END sends the first of them. -/
theorem pulseEnd_sends (hi : s.mstate ≠ .idle) (hrest : restOfTrain s ≠ []) :
    ∃ q t, takeWord pulseEndWord s = .next t ∧ Sends s q t := by
  have hf : Live (finishPulse s) := hl
  cases hm : s.mstate with
  | idle => exact absurd hm hi
  | hdrMark =>
    refine ⟨_, _, takeWord_of_taken (i := .modHdrMarkEnd) hl ⟨hm, rfl⟩,
      (startSpace_sends hf MState.noConfusion MState.noConfusion rfl ?_).of_finishPulse⟩
    rw [restOfTrain, finishPulse_mstate, hm]
    rfl
  | hdrSpace =>
    refine ⟨_, _, takeWord_of_taken (i := .modHdrSpaceEnd) hl ⟨hm, rfl⟩,
      (startMark_sends hf s.mcopy s.mbit rfl ?_).of_finishPulse⟩
    rw [restOfTrain, finishPulse_mstate, hm]
    exact congrArg (· ++ afterCopy s.cfg s.frame s.mcopy) (copyFrom_bit s.cfg s.frame s.mcopy s.mbit)
  | bitMark =>
    refine ⟨_, _, takeWord_of_taken (i := .modBitMarkEnd) hl ⟨hm, rfl⟩,
      (startSpace_sends hf MState.noConfusion MState.noConfusion rfl ?_).of_finishPulse⟩
    rw [restOfTrain, finishPulse_mstate, hm]
    rfl
  | bitSpace =>
    obtain ⟨q, hq⟩ := bitSpaceEnd_sends hf hm
    exact ⟨q, _, takeWord_of_taken (i := .modBitSpaceEnd) hl ⟨hm, rfl⟩, hq.of_finishPulse⟩
  | ftrMark =>
    refine ⟨_, _, takeWord_of_taken (i := .modFtrMarkEnd) hl ⟨hm, rfl⟩,
      (startSpace_sends hf MState.noConfusion MState.noConfusion rfl ?_).of_finishPulse⟩
    rw [restOfTrain, finishPulse_mstate, hm]
    rfl
  | ftrSpace =>
    obtain ⟨q, hq⟩ := ftrSpaceEnd_sends hf hm hrest
    exact ⟨q, _, takeWord_of_taken (i := .modFtrSpaceEnd) hl ⟨hm, rfl⟩, hq.of_finishPulse⟩
  | reserved => exact absurd hm hl.2

end

theorem copyFrom_ne_nil (p : Params) (f : Frame) (c : Bool) (k : Nat) : copyFrom p f c k ≠ [] :=
  List.append_ne_nil_of_right_ne_nil _ (List.cons_ne_nil _ _)

/-- No pulse is to come exactly in the footer space of the second copy. -/
theorem Sending.last_of_rest_nil {s : State} (h : Sending s) (hrest : restOfTrain s = []) :
    s.mstate = .ftrSpace ∧ s.mcopy = true := by
  unfold restOfTrain at hrest
  cases hm : s.mstate with
  | idle => exact absurd hm h.busy
  | reserved => exact absurd hm h.live.2
  | ftrSpace =>
    refine ⟨rfl, ?_⟩
    by_contra hcopy
    rw [hm, Bool.eq_false_of_not_eq_true hcopy] at hrest
    cases hrest
  | hdrMark | bitMark | ftrMark => rw [hm] at hrest; cases hrest
  | hdrSpace | bitSpace =>
    rw [hm] at hrest
    exact (copyFrom_ne_nil _ _ _ _ (List.append_eq_nil_iff.mp hrest).1).elim

theorem ftrSpaceEndEffect_of_second {s : State} (hcopy : s.mcopy = true) :
    ftrSpaceEndEffect s = post .txDone { s with mstate := .idle, mbit := 0, mcopy := false } :=
  if_neg (by simp [hcopy])

/-- After the last pulse PULSE_END rests the modulator and posts TX_DONE (R176). -/
theorem Sending.pulseEnd_ends {s : State} (h : Sending s) (hrest : restOfTrain s = []) :
    s.carrierEn = false ∧ takeWord pulseEndWord s =
      .next (post .txDone { finishPulse s with mstate := .idle, mbit := 0, mcopy := false }) := by
  obtain ⟨hm, hcopy⟩ := h.last_of_rest_nil hrest
  refine ⟨by rw [h.carrier, hm]; rfl, ?_⟩
  rw [takeWord_of_taken (i := .modFtrSpaceEnd) h.live ⟨hm, rfl⟩]
  exact congrArg Host.Outcome.next (ftrSpaceEndEffect_of_second (s := finishPulse s) hcopy)

/-! ### The whole train -/

/-- n PULSE_ENDs send the next n pulses. -/
theorem Sending.pulseEnds_send {s : State} (h : Sending s) {n : Nat} (hn : n ≤ (restOfTrain s).length) :
    ∃ t, takeWords (List.replicate n pulseEndWord) s = .next t ∧ Sent s ((restOfTrain s).take n) t ∧
      Sending t ∧ restOfTrain t = (restOfTrain s).drop n := by
  induction n generalizing s with
  | zero => exact ⟨s, rfl, .nil s, h, rfl⟩
  | succ n ih =>
    have hne : restOfTrain s ≠ [] := List.ne_nil_of_length_pos (by omega)
    obtain ⟨q, u, htake, hsent, hsending, hrest⟩ := pulseEnd_sends h.live h.busy hne
    rw [hrest, List.length_cons, Nat.succ_le_succ_iff] at hn
    obtain ⟨t, htakes, hsents, hend, hdrop⟩ := ih hsending hn
    rw [hrest]
    exact ⟨t, (takeWords_cons htake _).trans htakes, hsent.trans hsents, hend, hdrop⟩

/-- One PULSE_END more than there are pulses to come ends the transmission, with TX_DONE posted (R176). -/
theorem Sending.pulseEnds_end {s : State} (h : Sending s) :
    ∃ φ : Rat, takeWords (List.replicate ((restOfTrain s).length + 1) pulseEndWord) s =
      .next { s with
        mstate := .idle, mcopy := false, mbit := 0, mtimer := 0, carrierEn := false, cphase := φ
        pending := some .txDone, trace := s.trace ++ (restOfTrain s).map .pulse } := by
  obtain ⟨t, htakes, hsent, hsending, hrest⟩ := h.pulseEnds_send le_rfl
  rw [List.drop_length] at hrest
  rw [List.take_length] at hsent
  obtain ⟨hoff, hlast⟩ := hsending.pulseEnd_ends hrest
  obtain ⟨m, c, k, d, e, φ, rfl⟩ := hsent
  cases hoff
  rw [List.replicate_succ', takeWords_append htakes, takeWords_cons hlast]
  exact ⟨_, rfl⟩

theorem modStartEffect_sending {s : State} (hf : s.fault = none) : Sending (modStartEffect s) :=
  ⟨⟨hf, MState.noConfusion⟩, MState.noConfusion, rfl⟩

theorem length_restOfTrain_modStartEffect (s : State) : (restOfTrain (modStartEffect s)).length = 199 :=
  Nat.succ.inj (length_pulseTrain s.cfg s.frame)

theorem modStartEffect_trace_append (s : State) :
    (modStartEffect s).trace ++ (restOfTrain (modStartEffect s)).map .pulse =
      s.trace ++ .tx s.frame :: (pulseTrain s.cfg s.frame).map .pulse := by
  rw [pulseTrain_eq, List.map_cons]
  exact (List.append_assoc ..).trans (List.append_assoc ..)

/-- From M_IDLE, MOD_START and 200 PULSE_ENDs send the frame's pulse train and end at rest with TX_DONE posted. -/
theorem takeWords_train {s : State} (hl : Live s) (hm : s.mstate = .idle) :
    ∃ φ : Rat, takeWords (modStartWord :: List.replicate 200 pulseEndWord) s =
      .next { s with
        mstate := .idle, mcopy := false, mbit := 0, mtimer := 0, carrierEn := false, cphase := φ
        pending := some .txDone
        trace := s.trace ++ .tx s.frame :: (pulseTrain s.cfg s.frame).map .pulse } := by
  obtain ⟨φ, hends⟩ := (modStartEffect_sending hl.1).pulseEnds_end
  rw [length_restOfTrain_modStartEffect, modStartEffect_trace_append] at hends
  exact ⟨φ, (takeWords_cons (takeWord_of_taken (i := .modStart) hl ⟨hm, rfl⟩) _).trans hends⟩

/-! ### A whole report -/

theorem takeWord_txDone {s : State} (hl : Live s) (hc : s.cstate = .awakeTransmitting) :
    takeWord txDoneWord s = .next (txDoneEffect s) :=
  takeWord_of_taken (i := .txDone) hl ⟨hl.2, hc, rfl⟩

/-- The train with the TX_DONE it posts: the report is recorded and the block sleeps (R107, R108). -/
theorem takeWords_report {s : State} (hl : Live s) (hc : s.cstate = .awakeTransmitting) (hm : s.mstate = .idle) :
    ∃ φ : Rat, takeWords ((modStartWord :: List.replicate 200 pulseEndWord) ++ [txDoneWord]) s =
      .next { s with
        mstate := .idle, mcopy := false, mbit := 0, mtimer := 0, carrierEn := false, cphase := φ, pending := none
        lastC := BitVec.ofInt 32 (truncC s.sampleMc), reported := true, cycles := 0
        cstate := .asleep, stimerArmed := true, stimerRem := s.cfg.wakeS
        trace := s.trace ++ (.tx s.frame :: (pulseTrain s.cfg s.frame).map .pulse ++ [.sleep s.cfg.wakeS]) } := by
  obtain ⟨φ, htrain⟩ := takeWords_train hl hm
  refine ⟨φ, ?_⟩
  rw [takeWords_append htrain, takeWords_cons (takeWord_txDone ?live ?transmitting), ← List.append_assoc]
  case live => exact ⟨hl.1, MState.noConfusion⟩
  case transmitting => exact hc
  rfl

theorem verifyFrame_makeFrame (p : Params) (t : Int) : verifyFrame (makeFrame p t) = true :=
  decide_eq_true rfl

/-- Settles O59: the first sample transmits (`tickEffect_of_first`), and `takeWords_report` is the rest. -/
theorem wholeReportCycle : Obligations.WholeReportCycle := by
  intro s v hl hv hc hm hr
  have hfirst := tickEffect_of_first hv hr v
  have hframe := buildFrame_in (clampT_range (valid_temps hv).2.1 (truncC v))
  have hwords : [senseOkWord v, tickWord, modStartWord] ++ List.replicate 200 pulseEndWord ++ [txDoneWord] =
      senseOkWord v :: tickWord :: ((modStartWord :: List.replicate 200 pulseEndWord) ++ [txDoneWord]) := rfl
  obtain ⟨φ, hreport⟩ := takeWords_report (s := tickEffect (senseOkEffect v s)) (by rw [hfirst]; exact hl)
    (by rw [hfirst]) (by rw [hfirst]; exact hm)
  rw [hfirst] at hreport
  rw [hwords, takeWords_sample hl hc, hfirst]
  exact ⟨_, hreport, rfl, rfl, rfl, rfl, truncC_roundtrip v, rfl, hl.1, rfl, _, hframe,
    verifyFrame_makeFrame _ _, rfl, rfl⟩

end Sys2Proof.Machine
end

section
/-! The frame encoder: REV8 and the checksum (R131 to R134, R138 to R140), and the units that build a frame from a
temperature (R135 to R137, R141). A frame is valid when its reversed bytes sum to 0 modulo 256; detection of errors
and the invalid complement both follow from that law. -/

namespace Sys2Proof.Machine

/-! ### REV8 -/

theorem getLsbD_rev8 (b : Byte) {i : Nat} (hi : i < 8) : (rev8 b).getLsbD (7 - i) = b.getLsbD i := by
  rw [rev8, BitVec.getLsbD_reverse, BitVec.getMsbD_eq_getLsbD, decide_eq_true (by omega), Bool.true_and]
  congr 1
  omega

@[simp] theorem rev8_rev8 (b : Byte) : rev8 (rev8 b) = b := BitVec.reverse_reverse_eq

/-- Two bytes are equal when their reversals are. -/
theorem rev8_inj {a b : Byte} : rev8 a = rev8 b ↔ a = b :=
  (Function.Involutive.injective rev8_rev8).eq_iff

theorem rev8_not (b : Byte) : rev8 (~~~b) = ~~~rev8 b := by
  apply BitVec.eq_of_getLsbD_eq
  intro i hi
  have hplace : i = 7 - (7 - i) := by omega
  rw [hplace, getLsbD_rev8 _ (by omega), BitVec.getLsbD_not, BitVec.getLsbD_not, getLsbD_rev8 _ (by omega),
    decide_eq_true (by omega), decide_eq_true (by omega)]

theorem toNat_rev8_not (b : Byte) : (rev8 (~~~b)).toNat = 255 - (rev8 b).toNat := by
  rw [rev8_not, BitVec.toNat_not]

/-- Settles O25. REV8 is not additive: in `0x01 + 0x01` a carry goes up from bit 0, in the sum of the reversals out of
bit 7. -/
theorem rev8Reverses : Obligations.Rev8Reverses :=
  ⟨fun s _ hl => gate_live s _ _ hl trivial, fun b _ hi => getLsbD_rev8 b hi,
    fun b => ⟨rev8_rev8 b, rev8_not b, toNat_rev8_not b⟩, 0x01#8, 0x01#8, by decide⟩

/-! ### The checksum -/

/-- The running sum of R133 takes away the sum of the reversed bytes. -/
theorem foldl_checksumStep (bs : List Byte) (acc : Byte) :
    bs.foldl checksumStep acc = acc - BitVec.ofNat 8 (bs.map fun b => (rev8 b).toNat).sum := by
  induction bs generalizing acc with
  | nil => exact (sub_zero acc).symm
  | cons b bs ih =>
    rw [List.foldl_cons, ih, checksumStep, List.map_cons, List.sum_cons, BitVec.ofNat_add, BitVec.ofNat_toNat,
      BitVec.setWidth_eq, sub_sub]

theorem checksumAcc_eq (b0 b1 b2 b3 b4 : Byte) : checksumAcc b0 b1 b2 b3 b4 =
    BitVec.ofNat 8 (256 - ((rev8 b0).toNat + (rev8 b1).toNat + (rev8 b2).toNat + (rev8 b3).toNat
      + (rev8 b4).toNat) % 256) := by
  rw [checksumAcc, foldl_checksumStep]
  simp only [List.map_cons, List.map_nil, List.sum_cons, List.sum_nil]
  bv_omega

/-- Settles O26: the running sum is the negated sum of the reversed bytes (`checksumAcc_eq`). -/
theorem checksumIsTheNegatedReversedSum : Obligations.ChecksumIsTheNegatedReversedSum := by
  intro s b0 b1 b2 b3 b4 hl
  rw [← checksumAcc_eq]
  exact gate_live s _ _ hl trivial

/-! ### Validity -/

/-- The sum of a frame's reversed bytes as a number (R139). -/
def revSum (f : Frame) : Nat := ∑ i : Fin 6, (rev8 (frameByte f i)).toNat

theorem revSum_eq (f : Frame) : revSum f =
    (rev8 f.b0).toNat + (rev8 f.b1).toNat + (rev8 f.b2).toNat + (rev8 f.b3).toNat + (rev8 f.b4).toNat
      + (rev8 f.b5).toNat := Fin.sum_univ_six _

/-- The validity law (R139). -/
theorem verifyFrame_iff (f : Frame) : verifyFrame f = true ↔ revSum f % 256 = 0 := by
  have hacc : verifyFrame f = true ↔ checksumAcc f.b0 f.b1 f.b2 f.b3 f.b4 = rev8 f.b5 := by
    rw [verifyFrame, decide_eq_true_iff, checksum, ← rev8_inj, rev8_rev8]
  rw [hacc, checksumAcc_eq, revSum_eq]
  bv_omega

/-- Two valid frames that agree in every other byte agree in byte i as well. -/
theorem frameByte_eq_of_valid {f g : Frame} {i : Fin 6} (hf : verifyFrame f = true) (hg : verifyFrame g = true)
    (hrest : ∀ j, j ≠ i → frameByte f j = frameByte g j) : frameByte f i = frameByte g i := by
  have hsplit (h : Frame) : revSum h =
      (rev8 (frameByte h i)).toNat + ∑ j ∈ Finset.univ.erase i, (rev8 (frameByte h j)).toNat :=
    (Finset.add_sum_erase _ _ (Finset.mem_univ i)).symm
  have hsame : ∑ j ∈ Finset.univ.erase i, (rev8 (frameByte f j)).toNat =
      ∑ j ∈ Finset.univ.erase i, (rev8 (frameByte g j)).toNat :=
    Finset.sum_congr rfl fun j hj => by rw [hrest j (Finset.ne_of_mem_erase hj)]
  rw [verifyFrame_iff, hsplit] at hf hg
  rw [← rev8_inj, ← BitVec.toNat_inj]
  omega

section
variable {f g : Frame} {k : Nat}

/-- Where two frames differ when their words differ in bit k alone (R54). -/
theorem getLsbD_frameByte_xor (hk : k < 48) (h : frameWord f ^^^ frameWord g = 1#48 <<< k) (i : Fin 6) {j : Nat}
    (hj : j < 8) : ((frameByte f i).getLsbD j ^^ (frameByte g i).getLsbD j) = decide (k = 40 - 8 * i.val + j) := by
  rw [← getLsbD_frameWord f i hj, ← getLsbD_frameWord g i hj, ← BitVec.getLsbD_xor, h, ← BitVec.twoPow_eq,
    BitVec.getLsbD_twoPow, decide_eq_true hk, Bool.true_and]

/-- Bit k lies in byte 5 - k / 8, so the other bytes agree. -/
theorem frameByte_eq_of_xor (hk : k < 48) (h : frameWord f ^^^ frameWord g = 1#48 <<< k) {i : Fin 6}
    (hi : i.val ≠ 5 - k / 8) : frameByte f i = frameByte g i := by
  apply BitVec.eq_of_getLsbD_eq
  intro j hj
  have hbit := getLsbD_frameByte_xor hk h i hj
  rwa [decide_eq_false (by omega), bne_eq_false_iff_eq] at hbit

/-- A single-bit error breaks validity: it lies in one byte, and `frameByte_eq_of_valid` has that byte unchanged. -/
theorem verifyFrame_of_xor (hk : k < 48) (hf : verifyFrame f = true)
    (h : frameWord f ^^^ frameWord g = 1#48 <<< k) : verifyFrame g = false := by
  apply Bool.eq_false_of_not_eq_true
  intro hg
  have hbyte : frameByte f ⟨5 - k / 8, by omega⟩ = frameByte g ⟨5 - k / 8, by omega⟩ :=
    frameByte_eq_of_valid hf hg fun j hj => frameByte_eq_of_xor hk h fun hval => hj (Fin.ext hval)
  have hbit := getLsbD_frameByte_xor hk h ⟨5 - k / 8, by omega⟩ (j := k % 8) (by omega)
  rw [hbyte, Bool.xor_self, decide_eq_true (by dsimp only; omega)] at hbit
  exact Bool.noConfusion hbit

end

/-- Settles O27: the unit by its gate, the law by `verifyFrame_iff`, detection by `verifyFrame_of_xor`. -/
theorem verifyDetectsEverySingleBitError : Obligations.VerifyDetectsEverySingleBitError :=
  ⟨fun s _ hl => gate_live s _ _ hl trivial, fun f => revSum_eq f ▸ verifyFrame_iff f,
    fun _ _ _ => verifyFrame_of_xor⟩

/-- Each reversed byte b becomes 255 - b (R140). -/
theorem revSum_frameCompl (f : Frame) : revSum (frameCompl f) + revSum f = 6 * 255 := by
  simp only [revSum_eq, frameCompl, toNat_rev8_not]
  omega

/-- Settles O28: with `revSum f` a multiple of 256, the complement's sum is 250 modulo 256. -/
theorem invertedCopyIsNeverValid : Obligations.InvertedCopyIsNeverValid := by
  intro f hf
  have hsum : revSum (frameCompl f) % 256 = 250 := by
    have hcompl := revSum_frameCompl f
    rw [verifyFrame_iff] at hf
    omega
  refine ⟨revSum_eq (frameCompl f) ▸ hsum, Bool.eq_false_of_not_eq_true fun hvalid => ?_⟩
  rw [verifyFrame_iff] at hvalid
  omega

/-! ### Building a frame -/

/-- The follow-me byte holds `t + 1` without wrapping, for every temperature that R9 lets through. -/
theorem toNat_followMe {t : Int} (hlo : -1 ≤ t) (hhi : t ≤ 126) : ((followMe t).toNat : Int) = t + 1 := by
  rw [followMe, BitVec.toNat_ofInt]
  omega

/-- Settles O30: `toNat_followMe` gives byte 4, and so the temperature back from the frame. -/
theorem encoderLaws : Obligations.EncoderLaws := by
  intro p hv t hlo hhi
  obtain ⟨hmin, -, hmax⟩ := valid_temps hv
  have hbyte (u : Int) (hu : p.tempMin ≤ u ∧ u ≤ p.tempMax) : ((makeFrame p u).b4.toNat : Int) = u + 1 :=
    toNat_followMe (hmin.trans hu.1) (hu.2.trans hmax)
  have ht := hbyte t ⟨hlo, hhi⟩
  refine ⟨makeFrame p t, buildFrame_in ⟨hlo, hhi⟩, ht, ?_, rfl, verifyFrame_makeFrame p t, ?_⟩
  · exact (BitVec.testBit_toNat _).symm.trans (Nat.testBit_lt_two_pow (by omega))
  · intro u hu
    have hrange : p.tempMin ≤ u ∧ u ≤ p.tempMax := by
      by_contra hout
      rw [buildFrame_out hout] at hu
      cases hu
    have hu' := hbyte u hrange
    rw [eq_makeFrame_of_buildFrame hu] at ht
    omega

/-- Settles O29: `buildFrame_in` and `buildFrame_out`. -/
theorem buildFrameKeepsItsContract : Obligations.BuildFrameKeepsItsContract := by
  intro s t hl
  have hexec : exec (.buildFrame t) s = .next (buildFrameEffect t s) := gate_live s _ _ hl trivial
  rw [hexec, buildFrameEffect]
  constructor
  · intro hin
    rw [buildFrame_in hin]
    rfl
  · intro hout
    rw [buildFrame_out hout]
    simp only [raise, hl.1, Option.getD_none]

/-- Settles O31: the three cases of R11's `clamp`; above the range the value is not below it, by the order of the
bounds. -/
theorem clampKeepsTheRange : Obligations.ClampKeepsTheRange := by
  intro s t hl hv
  obtain ⟨-, horder, -⟩ := valid_temps hv
  refine ⟨gate_live s _ _ hl trivial, fun hbelow => if_pos hbelow, fun habove => ?_, fun hlo hhi => ?_⟩
  · exact (if_neg (by omega)).trans (if_pos habove)
  · exact (if_neg (by omega)).trans (if_neg (by omega))

end Sys2Proof.Machine
end

section
/-! The symbols and the pulse-train functions (R161 to R169), and the carrier (R179). -/

namespace Sys2Proof.Machine

/-- Settles O40: the gates of the four symbols, and their codes. -/
theorem symbolsAreMarkThenSpace : Obligations.SymbolsAreMarkThenSpace := fun s hl =>
  ⟨gate_live s _ _ hl trivial, gate_live s _ _ hl trivial, gate_live s _ _ hl trivial, gate_live s _ _ hl trivial,
    rfl, rfl, rfl, rfl⟩

/-! ### The bits of a copy -/

theorem bitSpaceUnits_sentBit (p : Params) (f : Frame) (c : Bool) (k : Fin 48) :
    bitSpaceUnits p (sentBit f c k) =
      if ((frameWord f).getLsbD (47 - k.val) ^^ c) = true then p.oneSpace else p.zeroSpace := by
  rw [bitSpaceUnits, sentBit, frameBit_eq_getLsbD_frameWord]

theorem copyPulses_eq_range (p : Params) (f : Frame) (c : Bool) : copyPulses p f c =
    [mark p.hdrMark, space p.hdrSpace] ++
      (List.range 48).flatMap (fun k => [mark p.bitMark,
        space (if ((frameWord f).getLsbD (47 - k) ^^ c) = true then p.oneSpace else p.zeroSpace)]) ++
      [mark p.ftrMark, space p.ftrSpace] := by
  rw [← List.map_coe_finRange_eq_range, List.flatMap_map]
  simp only [copyPulses, symBit_eq, bitSpaceUnits_sentBit]
  rfl

theorem frameByte_frameCompl (f : Frame) (i : Fin 6) : frameByte (frameCompl f) i = ~~~frameByte f i := by
  fin_cases i <;> rfl

theorem frameBit_frameCompl (f : Frame) (k : Fin 48) : frameBit (frameCompl f) k = !frameBit f k := by
  have hbit : 7 - k.val % 8 < 8 := by omega
  rw [frameBit, frameByte_frameCompl, BitVec.getLsbD_not, decide_eq_true hbit, Bool.true_and, frameBit]

theorem sentBit_first (f : Frame) (k : Fin 48) : sentBit f false k = frameBit f k := Bool.xor_false _

theorem sentBit_second (f : Frame) (k : Fin 48) : sentBit f true k = !frameBit f k := Bool.xor_true _

/-- Settles O34: the bits by their places in the frame word, and the second polarity as the complement. -/
theorem copySendsTheBitsInOrder : Obligations.CopySendsTheBitsInOrder := by
  refine ⟨fun s f c hl => ?_, fun p f => ?_⟩
  · rw [← copyPulses_eq_range]
    exact gate_live s _ _ hl trivial
  · simp only [copyPulses, sentBit_first, sentBit_second, frameBit_frameCompl]

/-! ### The pulses of the train by their numbers -/

/-- Two pulses go by with each bit. -/
theorem drop_copyFrom (p : Params) (f : Frame) (c : Bool) {k : Nat} (hk : k ≤ 48) :
    (copyFrom p f c 0).drop (2 * k) = copyFrom p f c k := by
  induction k with
  | zero => rfl
  | succ k ih =>
    rw [Nat.mul_succ, ← List.drop_drop, ih (by omega), copyFrom_bit p f c ⟨k, hk⟩]
    rfl

section
variable (p : Params) (f : Frame) (c : Bool)

theorem getElem?_copyPulses_add {k : Nat} (hk : k ≤ 48) (j : Nat) :
    (copyPulses p f c)[2 * k + j + 2]? = (copyFrom p f c k)[j]? := by
  rw [copyPulses_eq, ← drop_copyFrom p f c hk, List.getElem?_drop]
  rfl

theorem getElem?_copyPulses_bitMark (k : Fin 48) :
    (copyPulses p f c)[2 * k.val + 2]? = some (mark p.bitMark) := by
  refine (getElem?_copyPulses_add p f c k.isLt.le 0).trans ?_
  rw [copyFrom_bit]
  rfl

theorem getElem?_copyPulses_bitSpace (k : Fin 48) :
    (copyPulses p f c)[2 * k.val + 3]? = some (space (bitSpaceUnits p (sentBit f c k))) := by
  refine (getElem?_copyPulses_add p f c k.isLt.le 1).trans ?_
  rw [copyFrom_bit]
  rfl

theorem getElem?_copyPulses_footer (j : Nat) :
    (copyPulses p f c)[j + 98]? = [mark p.ftrMark, space p.ftrSpace][j]? := by
  rw [show j + 98 = 2 * 48 + j + 2 by omega, getElem?_copyPulses_add p f c le_rfl, copyFrom_last]

/-- Pulse j of copy c is pulse 100 c + j of the train. -/
theorem getElem?_pulseTrain {j : Nat} (hj : j < 100) :
    (pulseTrain p f)[100 * c.toNat + j]? = (copyPulses p f c)[j]? := by
  cases c with
  | false =>
    rw [show 100 * false.toNat + j = j by simp, pulseTrain, List.getElem?_append_left (by rwa [length_copyPulses])]
  | true =>
    rw [show 100 * true.toNat + j = 100 + j from rfl, pulseTrain,
      List.getElem?_append_right (by rw [length_copyPulses]; omega), length_copyPulses, Nat.add_sub_cancel_left]

theorem getElem?_pulseTrain_bitSpace (k : Fin 48) : (pulseTrain p f)[100 * c.toNat + 3 + 2 * k.val]? =
    some (space (bitSpaceUnits p (sentBit f c k))) := by
  rw [Nat.add_assoc, getElem?_pulseTrain p f c (by omega), Nat.add_comm 3, getElem?_copyPulses_bitSpace]

end

/-! ### Marks and spaces in turn -/

/-- The even pulses are marks, the odd ones spaces. -/
def Alternating (ps : List Pulse) : Prop :=
  ∀ (i : Nat) (q : Pulse), ps[i]? = some q → (q.kind = .mark ↔ i % 2 = 0)

theorem Alternating.nil : Alternating [] := fun _ _ h => by cases h

theorem Alternating.pair {ps : List Pulse} (h : Alternating ps) (d e : Nat) :
    Alternating (mark d :: space e :: ps)
  | 0, _, hq => by cases hq; exact iff_of_true rfl rfl
  | 1, _, hq => by cases hq; exact iff_of_false PulseKind.noConfusion (by decide)
  | i + 2, q, hq => by rw [Nat.add_mod_right]; exact h i q hq

theorem Alternating.bits {ps : List Pulse} (h : Alternating ps) (p : Params) (bs : List (Fin 48))
    (b : Fin 48 → Bool) : Alternating (bs.flatMap (fun k => symBit p (b k)) ++ ps) := by
  induction bs with
  | nil => exact h
  | cons k bs ih =>
    rw [List.flatMap_cons, symBit_eq]
    exact ih.pair _ _

theorem Alternating.copy {ps : List Pulse} (h : Alternating ps) (p : Params) (f : Frame) (c : Bool) :
    Alternating (copyPulses p f c ++ ps) := by
  rw [copyPulses, List.append_assoc, List.append_assoc]
  exact (((h.pair _ _).bits p _ _).pair _ _)

theorem alternating_pulseTrain (p : Params) (f : Frame) : Alternating (pulseTrain p f) := by
  have h := (Alternating.nil.copy p f true).copy p f false
  rwa [List.append_nil] at h

/-- Settles O35: the pulses by their numbers within a copy, and marks and spaces in turn. -/
theorem pulseTrainStructure : Obligations.PulseTrainStructure := by
  refine ⟨fun s f hl => gate_live s _ _ hl trivial, fun p f => ⟨length_pulseTrain p f, alternating_pulseTrain p f,
    fun c => ⟨?_, ?_, fun k => ⟨?_, ?_⟩, ?_, ?_⟩⟩⟩
  · exact getElem?_pulseTrain p f c (j := 0) (by decide)
  · exact getElem?_pulseTrain p f c (j := 1) (by decide)
  · rw [Nat.add_assoc, getElem?_pulseTrain p f c (by omega), Nat.add_comm 2, getElem?_copyPulses_bitMark]
  · exact getElem?_pulseTrain_bitSpace p f c k
  · exact (getElem?_pulseTrain p f c (by decide)).trans (getElem?_copyPulses_footer p f c 0)
  · exact (getElem?_pulseTrain p f c (by decide)).trans (getElem?_copyPulses_footer p f c 1)

/-! ### Durations -/

theorem trainUnits_append (ps qs : List Pulse) : trainUnits (ps ++ qs) = trainUnits ps + trainUnits qs := by
  rw [trainUnits, List.map_append, List.sum_append, trainUnits, trainUnits]

theorem trainUnits_cons (q : Pulse) (ps : List Pulse) : trainUnits (q :: ps) = q.units + trainUnits ps := rfl

theorem trainUnits_bits (p : Params) (b : Fin 48 → Bool) (bs : List (Fin 48)) :
    trainUnits (bs.flatMap (fun k => symBit p (b k))) =
      bs.length * p.bitMark + bs.countP b * p.oneSpace + bs.countP (fun k => !b k) * p.zeroSpace := by
  induction bs with
  | nil => simp [trainUnits]
  | cons k bs ih =>
    rw [List.flatMap_cons, trainUnits_append, ih, symBit_eq, List.countP_cons, List.countP_cons, List.length_cons]
    cases hb : b k <;> simp [trainUnits, mark, space, bitSpaceUnits] <;> ring

theorem countP_not (b : Fin 48 → Bool) :
    (List.finRange 48).countP (fun k => !b k) = 48 - (List.finRange 48).countP b := by
  have hlength := List.length_eq_countP_add_countP b (l := List.finRange 48)
  simp only [List.length_finRange, Bool.not_eq_true, Bool.decide_eq_false] at hlength
  omega

/-- The length of a copy by the number n of its one-bits as sent. -/
theorem trainUnits_copyPulses (p : Params) (f : Frame) (c : Bool) {n : Nat}
    (hn : (List.finRange 48).countP (sentBit f c) = n) :
    trainUnits (copyPulses p f c) = p.hdrMark + p.hdrSpace + 48 * p.bitMark + p.ftrMark + p.ftrSpace
      + n * p.oneSpace + (48 - n) * p.zeroSpace := by
  rw [copyPulses, trainUnits_append, trainUnits_append, trainUnits_bits, List.length_finRange, countP_not, hn]
  simp only [symHdr, symFtr, trainUnits, mark, space, List.map_cons, List.map_nil, List.sum_cons, List.sum_nil]
  ring

/-- Settles O36: the second copy sends a one-bit wherever the first sends a zero-bit. -/
theorem trainDuration : Obligations.TrainDuration := by
  intro p f n hn
  have hones : (List.finRange 48).countP (sentBit f false) = n := by rw [hn, funext (sentBit_first f)]
  have hzeros : (List.finRange 48).countP (sentBit f true) = 48 - n := by
    rw [hn, funext (sentBit_second f), countP_not]
  have hle : n ≤ 48 := hn ▸ List.countP_le_length.trans_eq List.length_finRange
  have hfirst := trainUnits_copyPulses p f false hones
  have hsecond := trainUnits_copyPulses p f true hzeros
  rw [Nat.sub_sub_self hle] at hsecond
  refine ⟨hfirst, hsecond, ?_⟩
  have hbits : n * (p.oneSpace + p.zeroSpace) + (48 - n) * (p.oneSpace + p.zeroSpace) =
      48 * (p.oneSpace + p.zeroSpace) := by rw [← Nat.add_mul, Nat.add_sub_cancel' hle]
  rw [pulseTrain, trainUnits_append, hfirst, hsecond, ← hbits]
  ring

/-! ### The second copy -/

/-- The pulses that carry no bit are the same in both copies. -/
theorem getElem?_copyPulses_second (p : Params) (f : Frame) {q : Nat} (hq : q < 100)
    (hbit : q % 2 = 0 ∨ q = 1 ∨ q = 99) : (copyPulses p f true)[q]? = (copyPulses p f false)[q]? := by
  by_cases hfooter : 98 ≤ q
  · obtain ⟨j, rfl⟩ := Nat.exists_eq_add_of_le' hfooter
    rw [getElem?_copyPulses_footer, getElem?_copyPulses_footer]
  by_cases hheader : q < 2
  · interval_cases q <;> rfl
  obtain ⟨k, rfl⟩ : ∃ k : Fin 48, q = 2 * k.val + 2 := ⟨⟨q / 2 - 1, by omega⟩, by dsimp only; omega⟩
  rw [getElem?_copyPulses_bitMark, getElem?_copyPulses_bitMark]

/-- Settles O37: the space of a bit follows the bit sent, which the second copy inverts. -/
theorem secondHalfIsInverted : Obligations.SecondHalfIsInverted := by
  intro p f hspaces
  refine ⟨fun k => ?_, fun q hq hbit => ?_⟩
  · have hfirst := getElem?_pulseTrain_bitSpace p f false k
    have hsecond := getElem?_pulseTrain_bitSpace p f true k
    rw [sentBit_first, show 100 * false.toNat + 3 + 2 * k.val = 3 + 2 * k.val by simp] at hfirst
    rw [sentBit_second, show 100 * true.toNat + 3 + 2 * k.val = 100 + 3 + 2 * k.val from rfl] at hsecond
    rw [hfirst, hsecond]
    cases frameBit f k with
    | false => exact iff_of_true rfl rfl
    | true => simp [bitSpaceUnits, space, hspaces.ne, hspaces.ne']
  · have hfirst := getElem?_pulseTrain p f false hq
    have hsecond := getElem?_pulseTrain p f true hq
    rw [show 100 * false.toNat + q = q by simp] at hfirst
    exact hsecond.trans ((getElem?_copyPulses_second p f hq hbit).trans hfirst.symm)

/-! ### The carrier -/

/-- The remainder is what is left of x after the whole number n of periods. -/
theorem ratMod_eq {x : Rat} {m : Nat} {n : Int} (h : 0 ≤ x - m * n) (hm : x - m * n < m) :
    ratMod x m = x - m * n := by
  have hpos : (0 : Rat) < m := h.trans_lt hm
  have hfloor : (x / m).floor = n := by
    refine Int.floor_eq_iff.mpr ⟨(le_div_iff₀ hpos).mpr ?_, (div_lt_iff₀ hpos).mpr ?_⟩ <;> linarith
  rw [ratMod, hfloor]

/-- Settles O38: the whole number of periods passed is the floor in `ratMod`. -/
theorem carrierWaveform : Obligations.CarrierWaveform := by
  refine ⟨fun s hl => gate_live s _ _ hl trivial, fun _ => rfl, fun p tau n h hlt => ?_⟩
  have hmod : ratMod (tau * p.carrierHz) 1000000 = tau * p.carrierHz - 1000000 * n := ratMod_eq h hlt
  rw [carrierHigh, hmod, decide_eq_true_iff, Nat.cast_mul, Nat.cast_ofNat]

end Sys2Proof.Machine
end

section
/-! The modulator's keys (R170 to R176) and what no other event does to a running train (R178). -/

namespace Sys2Proof.Machine

/-! ### Keys -/

theorem modStartEffect_eq (s : State) : modStartEffect s =
    { s with
      mcopy := false, mbit := 0, mstate := .hdrMark, carrierEn := true, cphase := 0
      mtimer := s.cfg.hdrMark, pending := if s.pending = some .modStart then none else s.pending
      trace := s.trace ++ [.tx s.frame, .pulse (mark s.cfg.hdrMark)] } := by
  rw [modStartEffect, startMark_eq]
  exact congrArg (fun tr => { modStartEffect s with trace := tr }) (List.append_assoc ..)

/-- Settles O19: the gate of MOD_START, and its key. -/
theorem modStartBeginsTheTrain : Obligations.ModStartBeginsTheTrain := fun s hl =>
  ⟨fun hm => (gate_live s (modStartEffect s) _ hl hm).trans (congrArg _ (modStartEffect_eq s)),
    fun hm => gate_illegal s _ _ hl.1 (.inr hm), decodeEvent_of_taken ⟨rfl, rfl⟩⟩

/-- The gate of a PULSE_END key, in the modulator state it names. -/
theorem gate_mstate {s : State} {m : MState} (hf : s.fault = none) (hm : s.mstate = m) (hr : m ≠ .reserved)
    (effect : State) : gate s (s.mstate = m) effect = .next effect :=
  gate_live s effect _ ⟨hf, hm ▸ hr⟩ hm

/-- Settles O20: the gates of the two header keys, and the keys. -/
theorem headerPulsesFollow : Obligations.HeaderPulsesFollow := fun _ hf =>
  ⟨fun hm => gate_mstate hf hm MState.noConfusion _, fun hm => gate_mstate hf hm MState.noConfusion _,
    decodeEvent_of_taken ⟨rfl, rfl⟩, decodeEvent_of_taken ⟨rfl, rfl⟩⟩

/-- Settles O21: the bit sent, read from the frame word by `bitSpaceUnits_sentBit`. -/
theorem bitMarkEndSendsTheBit : Obligations.BitMarkEndSendsTheBit := by
  intro s hf hm
  rw [← bitSpaceUnits_sentBit]
  exact ⟨gate_mstate hf hm MState.noConfusion _, decodeEvent_of_taken ⟨rfl, rfl⟩⟩

/-- Settles O22: the two branches of `bitSpaceEndEffect`. -/
theorem bitSpaceEndAdvances : Obligations.BitSpaceEndAdvances := by
  intro s hf hm
  have hexec : exec .modBitSpaceEnd s = .next (bitSpaceEndEffect s) := gate_mstate hf hm MState.noConfusion _
  rw [hexec]
  refine ⟨fun hbit => ?_, fun hbit => ?_, decodeEvent_of_taken ⟨rfl, rfl⟩⟩
  · rw [bitSpaceEndEffect, dif_pos hbit]
    rfl
  · rw [bitSpaceEndEffect, dif_neg (by omega)]
    rfl

/-- Settles O23: the gate of the footer mark's key, and the key. -/
theorem footerMarkEndSpaces : Obligations.FooterMarkEndSpaces := fun _ hf hm =>
  ⟨gate_mstate hf hm MState.noConfusion _, decodeEvent_of_taken ⟨rfl, rfl⟩⟩

theorem ftrSpaceEndEffect_of_first {s : State} (hcopy : s.mcopy = false) :
    ftrSpaceEndEffect s = startMark .hdrMark s.cfg.hdrMark { s with mcopy := true, mbit := 0 } :=
  if_pos hcopy

/-- Settles O24: the two branches of `ftrSpaceEndEffect`. -/
theorem footerSpaceEndRepeatsOrStops : Obligations.FooterSpaceEndRepeatsOrStops := by
  intro s hf hm
  have hexec : exec .modFtrSpaceEnd s = .next (ftrSpaceEndEffect s) := gate_mstate hf hm MState.noConfusion _
  rw [hexec]
  refine ⟨fun hcopy => ?_, fun hcopy => ?_, decodeEvent_of_taken ⟨rfl, rfl⟩⟩
  · rw [ftrSpaceEndEffect_of_first hcopy]
    rfl
  · rw [ftrSpaceEndEffect_of_second hcopy]
    rfl

/-! ### No cancellation -/

/-- While the modulator runs a transmission, its only keys but RESET are those of PULSE_END and TX_DONE. -/
theorem eq_txDone_of_taken {cs : CState} {ms : MState} {w : EventWord} {i : Instr} (h : TakenOn cs ms w i)
    (hc : cs = .awakeTransmitting) (hm : ms ≠ .idle) (hreset : w ≠ resetWord) (hpulse : w ≠ pulseEndWord) :
    i = .txDone ∧ w = txDoneWord := by
  subst hc
  cases i with
  | reset => exact absurd h hreset
  | wake | senseOk | senseFail | tick =>
    obtain ⟨-, hstate, -⟩ := h
    cases hstate
  | txDone =>
    obtain ⟨-, -, hw⟩ := h
    exact ⟨rfl, hw⟩
  | modStart =>
    obtain ⟨hidle, -⟩ := h
    exact absurd hidle hm
  | modHdrMarkEnd | modHdrSpaceEnd | modBitMarkEnd | modBitSpaceEnd | modFtrMarkEnd | modFtrSpaceEnd =>
    obtain ⟨-, hw⟩ := h
    exact absurd hw hpulse
  | _ => exact h.elim

/-- A word is accepted, or it is lost in a faulted block or faults it, and then nothing but FAULT is written (R200). -/
theorem takeWord_taken_or_fault {w : EventWord} {s t : State} (h : takeWord w s = .next t) :
    (∃ i, TakenOn s.cstate s.mstate w i ∧ ExecTo i (expire i s) t) ∨ ∃ r, t = { s with fault := some r } := by
  rcases takeWord_cases w s with
    ⟨hfault, -, hlost⟩ | ⟨i, hlegal, hexec⟩ | ⟨-, hraise⟩ | ⟨-, hraise⟩ | ⟨hunit, -⟩
  · obtain ⟨r, hr⟩ := Option.ne_none_iff_exists.mp hfault
    cases hlost.symm.trans h
    exact .inr ⟨r, by rw [hr]⟩
  · exact .inl ⟨i, decodeEvent_legal hlegal, exec_execTo (hexec.symm.trans h)⟩
  · cases hraise.symm.trans h
    exact .inr ⟨_, rfl⟩
  · cases hraise.symm.trans h
    exact .inr ⟨_, rfl⟩
  · exact absurd hunit (decodeEvent_ne_unassigned _ _ _)

/-- Settles O51: the one word accepted here is TX_DONE's (`eq_txDone_of_taken`), which writes no register of the train;
any other writes FAULT alone. -/
theorem transmissionCannotBeCancelled : Obligations.TransmissionCannotBeCancelled := by
  intro s t w hloop hm hreset hpulse htake
  rcases takeWord_taken_or_fault htake with ⟨i, htaken, e⟩ | ⟨r, rfl⟩
  · obtain ⟨hc, -⟩ := hloop.busy hm
    obtain ⟨rfl, hw⟩ := eq_txDone_of_taken htaken hc hm hreset hpulse
    obtain ⟨hstate, hcopy, hbit, htimer, hcarrier, hphase⟩ := e.modulator Instr.noConfusion (by decide)
    exact ⟨⟨hstate, hcopy, hbit, htimer, hcarrier, hphase, e.frame Instr.noConfusion Instr.noConfusion⟩,
      fun hne => absurd hw hne⟩
  · exact ⟨⟨rfl, rfl, rfl, rfl, rfl, rfl, rfl⟩, fun _ => ⟨rfl, Option.some_ne_none r⟩⟩

end Sys2Proof.Machine
end

section
/-! The pulse train of a transmission: the PULSE_ENDs of R177 one by one, and the whole train in time, with nothing
arriving (R181, R211). -/

namespace Sys2Proof.Machine

/-! ### PULSE_END by PULSE_END -/

theorem modStartEffect_trace_take (s : State) (n : Nat) :
    (modStartEffect s).trace ++ ((restOfTrain (modStartEffect s)).take n).map .pulse =
      s.trace ++ .tx s.frame :: ((pulseTrain s.cfg s.frame).take (n + 1)).map .pulse := by
  rw [pulseTrain_eq, List.take_succ_cons, List.map_cons]
  exact (List.append_assoc ..).trans (List.append_assoc ..)

theorem modStartEffect_pending_ne (s : State) : (modStartEffect s).pending ≠ some .modStart := by
  change (if s.pending = some .modStart then none else s.pending) ≠ some .modStart
  split
  case isTrue => exact nofun
  case isFalse hp => exact hp

/-- Settles O46: n PULSE_ENDs send the next n of the 199 pulses to come, and the 200th ends the train. -/
theorem modulatorEmitsThePulseTrain : Obligations.ModulatorEmitsThePulseTrain := by
  intro s hf hm
  have hl : Live s := ⟨hf, hm ▸ MState.noConfusion⟩
  refine ⟨fun n hn => ?_, ?_⟩
  · have hstart : takeWord modStartWord s = .next (modStartEffect s) :=
      takeWord_of_taken (i := .modStart) hl ⟨hm, rfl⟩
    rw [← length_restOfTrain_modStartEffect s] at hn
    obtain ⟨t, htakes, hsent, hsending, -⟩ := (modStartEffect_sending hf).pulseEnds_send hn
    obtain ⟨m, c, k, d, e, φ, rfl⟩ := hsent
    exact ⟨_, (takeWords_cons hstart _).trans htakes, hsending.busy, hf, rfl, modStartEffect_pending_ne s,
      modStartEffect_trace_take s n⟩
  · obtain ⟨φ, htrain⟩ := takeWords_train hl hm
    exact ⟨_, htrain, rfl, rfl, rfl, hf, rfl, rfl, rfl⟩

/-! ### Time -/

theorem runSteps_add {m : Nat} {s t : State} (h : runSteps m s = .next t) (n : Nat) :
    runSteps (m + n) s = runSteps n t := by
  induction m generalizing s with
  | zero => cases h; rw [Nat.zero_add]
  | succ m ih =>
    rw [runSteps] at h
    rw [Nat.succ_add, runSteps]
    split at h
    case h_1 => exact ih h
    case h_2 => cases h
    case h_3 => cases h

theorem runSteps_succ {s t : State} (h : step s = .next t) (n : Nat) : runSteps (n + 1) s = runSteps n t := by
  rw [runSteps, h]

/-- Nothing arrives and nothing is posted, in a block whose parameters meet R9. -/
structure Quiet (s : State) : Prop where
  valid : s.cfg.valid = true
  pending : s.pending = none
  inbox : s.inbox = []

theorem Quiet.sent {s t : State} {ps : List Pulse} (h : Quiet s) (hsent : Sent s ps t) : Quiet t := by
  obtain ⟨m, c, k, d, e, φ, rfl⟩ := hsent
  exact ⟨h.valid, h.pending, h.inbox⟩

theorem finishPulse_of_ended {s : State} (h : s.mtimer = 0) : finishPulse s = s := by
  rw [finishPulse, advancePhase, h, Nat.mul_zero, Nat.cast_zero, add_zero, ← h]

/-- A unit of time is a part of the rest of the pulse. -/
theorem finishPulse_elapseUnit {s : State} {n : Nat} (h : s.mtimer = n + 1) :
    finishPulse (elapseUnit s) = finishPulse s := by
  have hphase : (finishPulse (elapseUnit s)).cphase = (finishPulse s).cphase := by
    simp only [finishPulse, elapseUnit, advancePhase, h, Nat.add_sub_cancel]
    push_cast
    ring
  exact congrArg (fun φ => { finishPulse s with cphase := φ }) hphase

/-- The pulse being timed passes in a step for each unit it has left. -/
theorem runSteps_mtimer {s : State} (hsend : Sending s) (hq : Quiet s) {n : Nat} (h : s.mtimer = n) :
    runSteps n s = .next (finishPulse s) := by
  induction n generalizing s with
  | zero => rw [finishPulse_of_ended h]; rfl
  | succ n ih =>
    have hstep : step s = .next (elapseUnit s) :=
      step_unitOfTime hq.valid hsend.live.1 hq.pending hq.inbox hsend.busy hsend.live.2 (by omega)
    rw [runSteps_succ hstep, ih (s := elapseUnit s) ⟨hsend.live, hsend.busy, hsend.carrier⟩
      ⟨hq.valid, hq.pending, hq.inbox⟩ (congrArg Nat.pred h), finishPulse_elapseUnit h]

/-- What PULSE_END does in each state of the modulator that times a pulse (R171 to R176). -/
def pulseEndEffect (s : State) : State :=
  match s.mstate with
  | .hdrMark => startSpace .hdrSpace s.cfg.hdrSpace s
  | .hdrSpace => startMark .bitMark s.cfg.bitMark s
  | .bitMark => startSpace .bitSpace (bitSpaceUnits s.cfg (sentBit s.frame s.mcopy s.mbit)) s
  | .bitSpace => bitSpaceEndEffect s
  | .ftrMark => startSpace .ftrSpace s.cfg.ftrSpace s
  | .ftrSpace => ftrSpaceEndEffect s
  | .idle | .reserved => s

/-- Before the end of a pulse the rest of it passes (log entry 10). -/
theorem takenEffect_of_pulseEnd {i : Instr} {s : State} (h : TakenOn s.cstate s.mstate pulseEndWord i) :
    takenEffect i (expire i s) = pulseEndEffect (finishPulse s) := by
  unfold pulseEndEffect
  rw [finishPulse_mstate]
  cases i with
  | reset => exact absurd h (show pulseEndWord ≠ resetWord by decide)
  | wake | senseFail | tick | txDone =>
    obtain ⟨-, -, hw⟩ := h
    exact absurd hw (by decide)
  | senseOk v =>
    obtain ⟨-, -, hw⟩ := h
    rw [pulseEndWord_eq, senseOkWord, eventWord_inj] at hw
    exact absurd hw.1 (by decide)
  | modStart =>
    obtain ⟨-, hw⟩ := h
    exact absurd hw (by decide)
  | modHdrMarkEnd | modHdrSpaceEnd | modBitMarkEnd | modBitSpaceEnd | modFtrMarkEnd | modFtrSpaceEnd =>
    obtain ⟨hm, -⟩ := h
    rw [hm]
    rfl
  | _ => exact h.elim

theorem takeWord_pulseEnd {s : State} (hl : Live s) (hi : s.mstate ≠ .idle) :
    takeWord pulseEndWord s = .next (pulseEndEffect (finishPulse s)) := by
  obtain ⟨i, htaken⟩ := exists_taken_pulseEnd s.cstate hi hl.2
  rw [takeWord_of_taken hl htaken, takenEffect_of_pulseEnd htaken]

/-- When the timer has run out, the step takes PULSE_END. -/
theorem step_of_ended {s : State} (hsend : Sending s) (hq : Quiet s) (h : s.mtimer = 0) :
    step s = .next (pulseEndEffect s) := by
  have htimers : timersDue s = .word pulseEndWord := by
    rw [timersDue, if_neg hsend.live.2, if_pos hsend.busy, if_pos h]
  rw [step_of_valid hq.valid, due_quiet hq.inbox hq.pending hsend.live.1, arrive_quiet hq.inbox, htimers, runDue,
    takeWord_pulseEnd hsend.live hsend.busy, finishPulse_of_ended h]

/-- The steps of a pulse, one for each unit it has left and one for its end, do what its PULSE_END does. -/
theorem runSteps_pulse {s t : State} (hsend : Sending s) (hq : Quiet s)
    (htake : takeWord pulseEndWord s = .next t) : runSteps (s.mtimer + 1) s = .next t := by
  have hend : step (finishPulse s) = .next (pulseEndEffect (finishPulse s)) :=
    step_of_ended ⟨hsend.live, hsend.busy, hsend.carrier⟩ ⟨hq.valid, hq.pending, hq.inbox⟩ rfl
  rw [runSteps_add (runSteps_mtimer hsend hq rfl), runSteps_succ hend, ← htake,
    takeWord_pulseEnd hsend.live hsend.busy]
  rfl

/-! ### A pulse at its beginning -/

/-- The length in units of the mark that MSTATE's space follows; 0 where no space is timed. -/
def markBefore (s : State) : Nat :=
  match s.mstate with
  | .hdrSpace => s.cfg.hdrMark
  | .bitSpace => s.cfg.bitMark
  | .ftrSpace => s.cfg.ftrMark
  | .idle | .hdrMark | .bitMark | .ftrMark | .reserved => 0

/-- The pulse of MSTATE has just begun: its action ends the trace, MTIMER holds its whole length, and CPHASE the
time since the last mark began. -/
structure Begun (s : State) : Prop where
  last : ∃ k, s.trace.getLast? = some (.pulse ⟨k, s.mtimer⟩)
  timer : s.mtimer = pulseUnits s
  phase : s.cphase = (s.cfg.uUs * markBefore s : Nat)

theorem startMark_begun {m : MState} {d : Nat} {s : State} (hm : markBefore (startMark m d s) = 0)
    (hd : pulseUnits (startMark m d s) = d) : Begun (startMark m d s) where
  last := ⟨.mark, List.getLast?_concat ..⟩
  timer := hd.symm
  phase := by rw [hm, Nat.mul_zero, Nat.cast_zero]; rfl

/-- The phase as the pulse being timed ends. -/
theorem Begun.finishPulse_cphase {s : State} (h : Begun s) :
    (finishPulse s).cphase = (s.cfg.uUs * (markBefore s + pulseUnits s) : Nat) := by
  rw [finishPulse, advancePhase, h.phase, h.timer, ← Nat.cast_add, ← Nat.mul_add]

theorem Begun.startSpace {s : State} (h : Begun s) {m : MState} {d : Nat}
    (hm : markBefore (startSpace m d (finishPulse s)) = markBefore s + pulseUnits s)
    (hd : pulseUnits (startSpace m d (finishPulse s)) = d) : Begun (startSpace m d (finishPulse s)) where
  last := ⟨.space, List.getLast?_concat ..⟩
  timer := hd.symm
  phase := by rw [hm]; exact h.finishPulse_cphase

/-- The PULSE_END of a pulse that ran from its beginning leaves the next pulse at its beginning. -/
theorem Begun.pulseEnd {s : State} (h : Begun s) (hsend : Sending s)
    (hi : (pulseEndEffect (finishPulse s)).mstate ≠ .idle) : Begun (pulseEndEffect (finishPulse s)) := by
  unfold pulseEndEffect at hi ⊢
  rw [finishPulse_mstate] at hi ⊢
  cases hm : s.mstate with
  | idle => exact absurd hm hsend.busy
  | hdrMark | bitMark | ftrMark => exact h.startSpace (by simp [markBefore, pulseUnits, hm]) rfl
  | hdrSpace => exact startMark_begun rfl rfl
  | bitSpace =>
    change Begun (bitSpaceEndEffect (finishPulse s))
    unfold bitSpaceEndEffect
    split
    · exact startMark_begun rfl rfl
    · exact startMark_begun rfl rfl
  | ftrSpace =>
    rw [hm] at hi
    change Begun (ftrSpaceEndEffect (finishPulse s))
    cases hcopy : s.mcopy with
    | false =>
      rw [ftrSpaceEndEffect_of_first (s := finishPulse s) hcopy]
      exact startMark_begun rfl rfl
    | true => exact absurd (congrArg State.mstate (ftrSpaceEndEffect_of_second (s := finishPulse s) hcopy)) hi
  | reserved => exact absurd hm hsend.live.2

/-- The pulse that joined the trace is the one that MTIMER times. -/
theorem Begun.mtimer_eq {s t : State} {q : Pulse} (h : Begun t) (hsent : Sent s [q] t) : t.mtimer = q.units := by
  obtain ⟨k, hlast⟩ := h.last
  have hq : t.trace.getLast? = some (.pulse q) := by
    obtain ⟨m, c, b, d, e, φ, rfl⟩ := hsent
    exact List.getLast?_concat ..
  rw [hq] at hlast
  cases hlast
  rfl

/-! ### The whole train in time -/

/-- The end of the transmission: the pulses of ps have been sent, the modulator rests with TX_DONE posted, and CPHASE is
the length of the last footer, the time since the last rise of CARRIER_EN (R176, R179). -/
def trainEnded (s : State) (ps : List Pulse) : State :=
  { s with
    mstate := .idle, pending := some .txDone, mcopy := false, mbit := 0, mtimer := 0, carrierEn := false
    cphase := (s.cfg.uUs * (s.cfg.ftrMark + s.cfg.ftrSpace) : Nat)
    trace := s.trace ++ ps.map .pulse }

theorem trainEnded_sent {s t : State} {ps : List Pulse} (h : Sent s ps t) (qs : List Pulse) :
    trainEnded t qs = trainEnded s (ps ++ qs) := by
  obtain ⟨m, c, k, d, e, φ, rfl⟩ := h
  simp [trainEnded]

theorem Begun.pulseEnd_ends {s : State} (h : Begun s) (hsend : Sending s) (hrest : restOfTrain s = []) :
    takeWord pulseEndWord s = .next (trainEnded s []) := by
  obtain ⟨hoff, hends⟩ := hsend.pulseEnd_ends hrest
  have hphase := h.finishPulse_cphase
  rw [markBefore, pulseUnits, (hsend.last_of_rest_nil hrest).1] at hphase
  rw [hends]
  simpa [trainEnded, post, finishPulse, hoff] using hphase

/-- From the beginning of a pulse, a step for each unit of it and of the pulses to come and one for the end of each of
them run the train to its end. -/
theorem Begun.runSteps_train {s : State} (h : Begun s) (hsend : Sending s) (hq : Quiet s) :
    runSteps (s.mtimer + 1 + ((restOfTrain s).length + trainUnits (restOfTrain s))) s =
      .next (trainEnded s (restOfTrain s)) := by
  induction hrest : restOfTrain s generalizing s with
  | nil => exact runSteps_pulse hsend hq (h.pulseEnd_ends hsend hrest)
  | cons q qs ih =>
    obtain ⟨q', t, htake, hsent, hsending, hnext⟩ :=
      pulseEnd_sends hsend.live hsend.busy (hrest ▸ List.cons_ne_nil q qs)
    obtain ⟨rfl, hqs⟩ : q = q' ∧ qs = restOfTrain t := List.cons.inj (hrest.symm.trans hnext)
    have ht : t = pulseEndEffect (finishPulse s) :=
      Host.Outcome.next.inj (htake.symm.trans (takeWord_pulseEnd hsend.live hsend.busy))
    have hbegun : Begun t := ht ▸ h.pulseEnd hsend (ht ▸ hsending.busy)
    have hsteps : (q :: qs).length + trainUnits (q :: qs) = t.mtimer + 1 + (qs.length + trainUnits qs) := by
      rw [hbegun.mtimer_eq hsent, List.length_cons, trainUnits_cons]
      omega
    rw [hsteps, runSteps_add (runSteps_pulse hsend hq htake), ih hbegun hsending (hq.sent hsent) hqs.symm,
      trainEnded_sent hsent]
    rfl

theorem modStartEffect_begun (s : State) : Begun (modStartEffect s) := startMark_begun rfl rfl

theorem step_modStart {s : State} (hv : s.cfg.valid = true) (hf : s.fault = none) (hm : s.mstate = .idle)
    (hp : s.pending = some .modStart) (hi : s.inbox = []) : step s = .next (modStartEffect s) := by
  have hinbox : dropExplicit modStartWord s.inbox = s.inbox := by rw [hi]; rfl
  rw [postedEventIsTheNextStep s .modStart hv hf hp (by simp [hi]) (by simp [hi]), postedWord, hinbox]
  exact takeWord_of_taken (i := .modStart) ⟨hf, hm ▸ MState.noConfusion⟩ ⟨hm, rfl⟩

/-- Settles O47: the step that takes MOD_START, then `Begun.runSteps_train` from the first header mark. -/
theorem transmissionRunsByItself : Obligations.TransmissionRunsByItself := by
  intro s hv hf hm hp hi
  have hquiet : Quiet (modStartEffect s) := ⟨hv, if_pos hp, hi⟩
  have hruns := (modStartEffect_begun s).runSteps_train (modStartEffect_sending hf) hquiet
  have hsteps : 201 + trainUnits (pulseTrain s.cfg s.frame) = (modStartEffect s).mtimer + 1 +
      ((restOfTrain (modStartEffect s)).length + trainUnits (restOfTrain (modStartEffect s))) + 1 := by
    rw [length_restOfTrain_modStartEffect, pulseTrain_eq, trainUnits_cons]
    change _ + (s.cfg.hdrMark + _) = s.cfg.hdrMark + _ + _ + _
    omega
  rw [hsteps, runSteps_succ (step_modStart hv hf hm hp hi), hruns, trainEnded, modStartEffect_trace_append, ← hm]
  rfl

end Sys2Proof.Machine
end

section
/-! The fault state and the priority of RESET (R200, R207, R234): a faulted block takes RESET alone, RESET goes before
everything that arrives, and a second event of the same entry faults. -/

namespace Sys2Proof.Machine

/-! ### The fault state -/

section
variable {s : State} (hf : s.fault ≠ none)
include hf

/-- Every instruction but RESET passes the gate, which a fault closes. -/
theorem exec_of_faulted {i : Instr} (hi : i ≠ .reset) : exec i s = .next s := by
  cases i with
  | reset => exact absurd rfl hi
  | _ => exact gate_faulted s _ _ hf

theorem takeWord_of_faulted {w : EventWord} (hw : w ≠ resetWord) : takeWord w s = .next s :=
  if_pos ⟨Option.isSome_iff_ne_none.mpr hf, hw⟩

/-- What arrives at a faulted block is lost (log entry 11). -/
theorem step_of_faulted (hv : s.cfg.valid = true) (hr : s.inbox.head?.any bringsReset = false) :
    step s = .next { s with inbox := s.inbox.tail } := by
  have hsome : s.fault.isSome = true := Option.isSome_iff_ne_none.mpr hf
  have hdue : due s = .stopped := by simp [due, hr, hsome]
  have hinbox : inboxAfter s = s.inbox.tail := by simp [inboxAfter, hr, hsome]
  rw [step_of_valid hv, hdue, arrive, hinbox]
  rfl

end

/-- Settles O9: the gate and the step are closed by a fault, and RESET's loads open them again. -/
theorem faultedBlockTakesOnlyReset : Obligations.FaultedBlockTakesOnlyReset :=
  ⟨raise_of_none, fun _ hf => ⟨fun _ => exec_of_faulted hf, ⟨_, rfl, rfl⟩, fun _ => takeWord_of_faulted hf,
    step_of_faulted hf⟩⟩

/-! ### RESET first -/

/-- The word of RESET is taken in every state, a faulted one and MSTATE = 0b111 included (R87, R200). -/
theorem takeWord_reset (s : State) : takeWord resetWord s = exec .reset s := by
  have hlegal : decodeEvent s.cstate s.mstate resetWord = .legal .reset := decodeEvent_of_taken (i := .reset) rfl
  rw [takeWord, if_neg (fun h => h.2 rfl), hlegal]
  rfl

theorem step_of_reset {s : State} {inp : Input} {rest : List Input} (hv : s.cfg.valid = true)
    (hi : s.inbox = inp :: rest) (hr : bringsReset inp = true) : step s = exec .reset { s with inbox := rest } := by
  have hdue : due s = .word resetWord := by simp [due, hi, hr]
  have hinbox : inboxAfter s = rest := by simp [inboxAfter, hi, hr]
  rw [step_of_valid hv, hdue, arrive, hinbox]
  exact takeWord_reset _

/-- Settles O7: `step_of_reset` for an entry of event words. -/
theorem resetIsTakenFirst : Obligations.ResetIsTakenFirst :=
  fun _ _ _ hv hi hmem => step_of_reset hv hi (List.contains_iff_mem.mpr hmem)

/-! ### The second event of an entry -/

theorem takeWord_answers (w : EventWord) (s : State) : ∃ t, takeWord w s = .next t := by
  rcases takeWord_cases w s with ⟨-, -, e⟩ | ⟨i, -, e⟩ | ⟨-, e⟩ | ⟨-, e⟩ | ⟨hunit, -⟩
  · exact ⟨s, e⟩
  · exact e ▸ exec_answers i (expire i s)
  · exact ⟨_, e⟩
  · exact ⟨_, e⟩
  · exact absurd hunit (decodeEvent_ne_unassigned _ _ _)

theorem ExecTo.inbox {i : Instr} {s t : State} (e : ExecTo i s t) : t.inbox = s.inbox := by
  cases e <;> rfl

theorem expire_inbox (i : Instr) (s : State) : (expire i s).inbox = s.inbox := by
  rcases expire_cases i s with e | e | e <;> rw [e] <;> rfl

/-- Taking a word leaves the parameters and the rest of the stimulus. -/
theorem takeWord_keeps {w : EventWord} {s t : State} (h : takeWord w s = .next t) :
    t.cfg = s.cfg ∧ t.inbox = s.inbox := by
  rcases takeWord_taken_or_fault h with ⟨i, -, e⟩ | ⟨r, rfl⟩
  · obtain ⟨hcfg, -⟩ := e.extends_state
    exact ⟨hcfg.trans (expire_cfg i s), e.inbox.trans (expire_inbox i s)⟩
  · exact ⟨rfl, rfl⟩

theorem carryOut_surplusVerdict (w : EventWord) (s : State) : carryOut (surplusVerdict w) s =
    .next (raise (if isReservedWord w = true then .reservedEncoding else .illegalEvent) s) := by
  rw [surplusVerdict]
  split <;> rfl

/-- A second event goes before a posted one (log entry 4). -/
theorem step_of_surplus {s : State} {w : EventWord} {rest : List Input} (hv : s.cfg.valid = true)
    (hf : s.fault = none) (hi : s.inbox = .surplus w :: rest) (hr : bringsReset (.surplus w) = false) :
    step s = .next { s with
      inbox := rest
      fault := some (if isReservedWord w = true then .reservedEncoding else .illegalEvent) } := by
  have hposted : nextPosted s = none := by rw [nextPosted, hi]; rfl
  have hdue : due s = .surplus w := by simp [due, hposted, hi, hr, hf, inputDue]
  have hinbox : inboxAfter s = rest := by simp [inboxAfter, hposted, hi, hr, hf, dropInput]
  rw [step_of_valid hv, hdue, arrive, hinbox, runDue, carryOut_surplusVerdict]
  exact congrArg Host.Outcome.next (raise_of_none _ _ hf)

/-- Settles O8: the first word is taken by `step_of_input`, and whatever it does (`takeWord_keeps`) the second comes
next, to fault by `step_of_surplus` or to be lost in the fault of the first. -/
theorem secondEventFaults : Obligations.SecondEventFaults := by
  intro s v w ws rest hv hf hp hi hreset
  obtain ⟨t, ht⟩ := takeWord_answers v { s with inbox := .surplus w :: rest }
  obtain ⟨hcfg, hinbox⟩ := takeWord_keeps ht
  have hvt : t.cfg.valid = true := hcfg ▸ hv
  have hfirst : step s = .next t := (step_of_input hv hf hp hi (bringsReset_events hreset)).trans ht
  have hw : bringsReset (.surplus w) = false :=
    beq_false_of_ne fun h => hreset (h ▸ List.mem_cons_of_mem v List.mem_cons_self)
  by_cases hft : t.fault = none
  · exact ⟨t, _, ht, hfirst, step_of_surplus hvt hft hinbox hw, Option.some_ne_none _, rfl, fun _ => rfl,
      fun hne => absurd hft hne⟩
  · have hlost : step t = .next { t with inbox := rest } := by
      rw [step_of_faulted hft hvt (by simpa [hinbox] using hw), hinbox]
      rfl
    exact ⟨t, _, ht, hfirst, hlost, hft, rfl, fun h => absurd h hft, fun _ => rfl⟩

end Sys2Proof.Machine
end

section
/-! The sleep timer (R205, R210), with nothing arriving. -/

namespace Sys2Proof.Machine

/-- The block sleeps with its timer armed, and nothing arrives. -/
structure Sleeping (s : State) : Prop where
  quiet : Quiet s
  fault : s.fault = none
  idle : s.mstate = .idle
  asleep : s.cstate = .asleep
  armed : s.stimerArmed = true

theorem runSteps_one (s : State) : runSteps 1 s = step s := by
  rw [runSteps]
  cases step s <;> rfl

section
variable {s : State} (h : Sleeping s)
include h

/-- Only the seconds left say how far the sleep has come. -/
theorem Sleeping.with_stimerRem (n : Nat) : Sleeping { s with stimerRem := n } :=
  ⟨⟨h.quiet.valid, h.quiet.pending, h.quiet.inbox⟩, h.fault, h.idle, h.asleep, h.armed⟩

theorem Sleeping.timersDue_eq : timersDue s = if 1 ≤ s.cfg.wakeS then
    (if s.stimerRem = 0 then .word wakeWord else .second) else .stopped := by
  simp [timersDue, h.idle, h.asleep, h.armed]

theorem Sleeping.step_eq : step s = runDue (timersDue s) s := by
  rw [step_of_valid h.quiet.valid, due_quiet h.quiet.inbox h.quiet.pending h.fault, arrive_quiet h.quiet.inbox]

theorem Sleeping.step_second (hw : 1 ≤ s.cfg.wakeS) (hrem : s.stimerRem ≠ 0) : step s = .next (elapseSecond s) := by
  rw [h.step_eq, h.timersDue_eq, if_pos hw, if_neg hrem]
  rfl

theorem Sleeping.step_wake (hw : 1 ≤ s.cfg.wakeS) (hrem : s.stimerRem = 0) :
    step s = exec .wake { s with stimerRem := 0 } := by
  have hlegal : decodeEvent s.cstate s.mstate wakeWord = .legal .wake :=
    decodeEvent_of_taken (i := .wake) ⟨h.idle ▸ MState.noConfusion, h.asleep, rfl⟩
  rw [h.step_eq, h.timersDue_eq, if_pos hw, if_pos hrem]
  exact takeWord_of_legal h.fault hlegal

/-- With P_WAKE_S = 0 the timer never fires. -/
theorem Sleeping.step_endless (hw : s.cfg.wakeS = 0) : step s = .next s := by
  rw [h.step_eq, h.timersDue_eq, if_neg (by omega)]
  rfl

theorem Sleeping.runSteps_seconds (hw : 1 ≤ s.cfg.wakeS) {k : Nat} (hk : k ≤ s.stimerRem) :
    runSteps k s = .next { s with stimerRem := s.stimerRem - k } := by
  induction k with
  | zero => rfl
  | succ k ih =>
    rw [runSteps_add (ih (by omega)), runSteps_one]
    exact (h.with_stimerRem _).step_second hw (show s.stimerRem - k ≠ 0 by omega)

end

/-- Settles O54: a step for each second left, and then the step that takes WAKE. -/
theorem sleepTimerWakesTheBlock : Obligations.SleepTimerWakesTheBlock := by
  intro s hv hf hm hc ha hp hi
  have h : Sleeping s := ⟨⟨hv, hp, hi⟩, hf, hm, hc, ha⟩
  refine ⟨fun hw => ⟨fun k => h.runSteps_seconds hw, ?_⟩, h.step_endless⟩
  rw [runSteps_add (h.runSteps_seconds hw le_rfl), runSteps_one]
  exact (h.with_stimerRem _).step_wake hw (Nat.sub_self _)

end Sys2Proof.Machine
end

section
/-! RESET (R230 to R233): what it loads, and that the block starts over from any state. -/

namespace Sys2Proof.Machine

/-! ### The loads -/

/-- RESET passes no gate: no state refuses it (R87, R200). -/
theorem exec_reset (s : State) : exec .reset s = .next (sampleEntry (resetLoads s)) := rfl

theorem resetLoads_eq (s : State) : resetLoads s =
    { s with
      fault := none, reported := false, lastC := 0#32, cycles := 0, cycSnap := 0
      sampleMc := Config.freeSample s.resets, frame := Config.freeFrame s.resets
      mstate := .idle, mcopy := false, mbit := 0, mtimer := 0, carrierEn := false, cphase := 0
      stimerArmed := false, stimerRem := 0, pending := none, resets := s.resets + 1 } := rfl

/-- Settles O13: the loads of `resetLoads_eq`, then the entry of `sampleEntry_eq`; the word of RESET is taken in every
state, and with a payload in none. -/
theorem resetLoadsEveryRegister : Obligations.ResetLoadsEveryRegister := by
  refine fun s => ⟨?_, fun cs ms => ⟨decodeEvent_of_taken (i := .reset) rfl, fun p hp => ?_⟩⟩
  · rw [exec_reset, sampleEntry_eq, resetLoads_eq]
  · exact decodeEvent_of_payload cs ms (by decide) hp

/-! ### The invariants -/

/-- What every state RESET loads has, every state RESET gives has. -/
theorem forall_exec_reset {P : State → Prop} (h : ∀ s, P (sampleEntry (resetLoads s))) {s t : State}
    (hexec : exec .reset s = .next t) : P t :=
  Host.Outcome.next.inj hexec ▸ h s

/-- Settles O43: the registers the invariant reads stand in `State.reset` as RESET loads them (R232). -/
theorem resetMeetsCoreInv : Obligations.ResetMeetsCoreInv :=
  ⟨{ CoreInv.reset State.reset with }, fun _ _ => forall_exec_reset CoreInv.reset⟩

/-- Settles O45: of the registers, only SAMPLE_MC and FRAME, free values, can differ between `State.reset` and what
RESET loads (R232), and the invariant ties these to each other only while transmitting. -/
theorem resetMeetsLoopInv : Obligations.ResetMeetsLoopInv :=
  ⟨{ LoopInv.reset State.reset with frame := CState.noConfusion }, fun _ _ => forall_exec_reset LoopInv.reset⟩

/-! ### A reset during a transmission -/

/-- Settles O52: the state RESET gives has the modulator idle, where the core invariant keeps the emitter off. -/
theorem resetCutsTheTrain : Obligations.ResetCutsTheTrain := by
  intro s _
  obtain ⟨hcarrier, hpin⟩ := emitterIsOffOutsideMarks _ (CoreInv.reset s) (.inl rfl)
  exact ⟨_, exec_reset s, hcarrier, hpin, rfl, rfl, rfl, rfl, rfl, rfl⟩

end Sys2Proof.Machine
end
